-- ==== Sys2Proof/Word.lean ====
section
/-!
DEFINITION. The widths of 00_scope.md section 4 and the shape of sparse data by key.
-/

namespace Sys2Proof

/-- `u8`. -/
abbrev Byte := BitVec 8

/-- `u16`. -/
abbrev Word16 := BitVec 16

/-- `u32`. -/
abbrev Word32 := BitVec 32

/-- A finite map from a number (a buffer index, an opcode, a slot's number) to a value, as a list of cells in ONE
canonical form: keys strictly rising (Machine/Cells.lean). A key that is not listed holds nothing. -/
abbrev Cells (α : Type) := List (Nat × α)

end Sys2Proof
end

