-- ==== Sys2Proof/Config.lean ====
section
/-!
DEFINITION. What an implementation of this block fixes (00_scope.md section 3), and the free values: constants with no
body, of which nothing can be proved but that they exist.
-/

namespace Sys2Proof.Config

/-- `RX_BUF_CAP`, 00_scope.md R15. -/
@[simp] abbrev rxBufCap : Nat := 260

/-- `PL_MAX`, 00_scope.md R16. -/
@[simp] abbrev plMax : Nat := 255

/-- `PL_CAP`, 00_scope.md R16: the capacity of the payload buffer, which holds every payload of at most `PL_MAX` bytes. -/
@[simp] abbrev plCap : Nat := 256

/-- `START_SHORT`, 00_scope.md R20. -/
@[simp] abbrev startShort : Byte := 0x02

/-- `START_LONG`, 00_scope.md R20. -/
@[simp] abbrev startLong : Byte := 0x03

/-- `TERMINATOR`, 00_scope.md R20. -/
@[simp] abbrev terminator : Byte := 0x03

/-- `SHORT_OVERHEAD`, 00_scope.md R20. -/
@[simp] abbrev shortOverhead : Nat := 5

/-- The generator polynomial, 00_scope.md R20. -/
@[simp] abbrev crcPoly : Word16 := 0x1021

/-- The default `IDENT`, 00_scope.md R11. -/
@[simp] abbrev identDefault : Byte := 0x66

/-- The default `CRC_INIT`, 00_scope.md R12. -/
@[simp] abbrev crcInitDefault : Word16 := 0xFFFF

/-- The other admitted `CRC_INIT`, 00_scope.md R12. -/
@[simp] abbrev crcInitAlternative : Word16 := 0x0000

/-- The two payload orders the source leaves open. -/
inductive PayloadOrder where
  | identFirst
  | opcodeFirst
  deriving DecidableEq, Repr

/-- `LONG_FRAME_SUPPORT`, 00_scope.md R17: false, fixed. -/
def longFrameSupport : Bool := false

/-- `PAYLOAD_ORDER`, 00_scope.md R18: IdentFirst, fixed. -/
def payloadOrder : PayloadOrder := .identFirst

/-- FREE VALUE (log 12): `F32AUTO_DECODE`, 00_scope.md R19, the real value of an auto-scaled float32 word. -/
opaque f32AutoDecode : Word32 → Rat

/-- FREE VALUE (log 11): the transport's answer to the write with this number, for this many bytes offered, where the
environment has not fixed one (`draw_tx_accept`, 42_frame_transmitter.md R193). -/
opaque txAccept : Nat → Nat → Nat

/-- FREE VALUE (log 13): what `rx_buf` holds at an index nothing has written (93_implementation_defined.md row 12). -/
opaque unwrittenRxByte : Nat → Byte

/-- FREE VALUE (log 21): the value of a fixed-point word whose divisor is 0. 43_command_codec.md R212 keeps every such
kind out of a configured table, so no run reads it. -/
opaque zeroDivisorValue : Nat → Rat

end Sys2Proof.Config
end

