-- ==== Sys2Proof/Syntax.lean ====
section
/-!
DEFINITION. The instructions: one constructor of `Instr` per row of spec/opcode_table.json, with the operand types of
44_session_ops.md and 43_command_codec.md. Host operations are selected by name (30_encoding.md, opening), so their
written form is a named line, `HostLine`. The wire rows are bytes, selected by the context the block meets them in
(30_encoding.md R110).
-/

namespace Sys2Proof

/-- The two decoded state records, 10_state.md R49. -/
inductive Record where
  | telemetry
  | settings
  deriving DecidableEq, Repr

/-- The record slots, 10_state.md R49: the eleven the source names, and those a configured OPTABLE adds to one of the
records. An added slot's name is a number here (log 16). -/
inductive Slot where
  | motorCurrent
  | dutyCycle
  | rpm
  | inputVoltage
  | switchState
  | pidOutput
  | lightMode
  | idleWarningTimeout
  | engineSoundVolume
  | overspeedWarning
  | featureFlags
  | added (record : Record) (name : Nat)
  deriving DecidableEq, Repr

/-- The field kinds, a closed set: 30_encoding.md R104. -/
inductive Kind where
  | u8
  | i8
  | bool8
  | u16
  | i16
  | u32
  | i32
  | fix16 (divisor : Nat)
  | fix32 (divisor : Nat)
  | f32auto
  deriving DecidableEq, Repr

/-- One field of an arm, 43_command_codec.md R211. -/
structure Field where
  kind : Kind
  slot : Slot
  deriving DecidableEq, Repr

/-- An OPTABLE arm, 43_command_codec.md R211. -/
structure Arm where
  name : String
  record : Record
  fields : List Field
  deriving DecidableEq, Repr

/-- `OPTABLE`, a finite map from an opcode to an arm: 43_command_codec.md R211. The keys are the opcodes' numbers. -/
abbrev OpTable := Cells Arm

/-- A raw word of 8, 16 or 32 bits: 30_encoding.md R104, 10_state.md R50. -/
inductive Raw where
  | w8 (v : Byte)
  | w16 (v : Word16)
  | w32 (v : Word32)
  deriving DecidableEq, Repr

/-- A value handed to ENC_FIELDS: a bool for a BOOL8, a raw word for any other kind (43_command_codec.md R232). -/
inductive FieldIn where
  | bool (b : Bool)
  | raw (r : Raw)
  deriving DecidableEq, Repr

/-- The names of the rows of spec/opcode_table.json. -/
inductive Mnemonic where
  | configure
  | bindTransport
  | bindDiag
  | crcClear
  | crcFeed
  | crcRead
  | crcCompute
  | txSend
  | rxReceive
  | decode
  | encRequest
  | encFields
  | request
  | readField
  | poll
  | arrive
  | startShort
  | startLong
  | startOther
  | length
  | data
  | terminator
  | notTerminator
  | identOk
  | identMismatch
  | opRequestTelemetry
  | opArm
  | opUnknown
  deriving DecidableEq, Repr

/-- One constructor per row of spec/opcode_table.json. -/
inductive Instr where
  /-- CONFIGURE, 44_session_ops.md R250. -/
  | configure (timeout : Nat) (ident : Byte) (crcInit : Word16) (reqSentinel : Byte) (optable : OpTable)
  /-- BIND_TRANSPORT, 44_session_ops.md R252. -/
  | bindTransport
  /-- BIND_DIAG, 44_session_ops.md R254. -/
  | bindDiag
  /-- CRC_CLEAR, 40_checksum.md R135. -/
  | crcClear
  /-- CRC_FEED, 40_checksum.md R136. -/
  | crcFeed (b : Byte)
  /-- CRC_READ, 40_checksum.md R137. -/
  | crcRead
  /-- CRC_COMPUTE, 40_checksum.md R138. -/
  | crcCompute (bytes : List Byte)
  /-- TX_SEND, 42_frame_transmitter.md R193. -/
  | txSend (p : List Byte)
  /-- RX_RECEIVE, 41_frame_receiver.md R150. -/
  | rxReceive
  /-- DECODE, 43_command_codec.md R220. -/
  | decode (p : List Byte)
  /-- ENC_REQUEST, 43_command_codec.md R230. -/
  | encRequest (op : Byte)
  /-- ENC_FIELDS, 43_command_codec.md R232. -/
  | encFields (op : Byte) (vs : List (Kind × FieldIn))
  /-- REQUEST, 44_session_ops.md R256. -/
  | request (op : Byte)
  /-- READ_FIELD, 44_session_ops.md R258. -/
  | readField (record : Record) (slot : Slot)
  /-- POLL at time `time`, 41_frame_receiver.md R152. -/
  | poll (time : Nat)
  /-- ARRIVE, 10_state.md R53. -/
  | arrive (b : Byte)
  /-- START_SHORT: byte 0x02 in AwaitStart, 41_frame_receiver.md R155. -/
  | startShort
  /-- START_LONG: byte 0x03 in AwaitStart, 41_frame_receiver.md R157. -/
  | startLong
  /-- START_OTHER: any other byte in AwaitStart, 41_frame_receiver.md R154. -/
  | startOther (b : Byte)
  /-- LENGTH: any byte in AwaitShortLength, 41_frame_receiver.md R156. -/
  | length (b : Byte)
  /-- DATA: a byte in Accumulating that does not bring `rx_count` to `rx_expected`, 41_frame_receiver.md R158. -/
  | data (b : Byte)
  /-- TERMINATOR: byte 0x03 that brings `rx_count` to `rx_expected`, 41_frame_receiver.md R158. -/
  | terminator
  /-- NOT_TERMINATOR: any other byte there, 41_frame_receiver.md R160. -/
  | notTerminator (b : Byte)
  /-- IDENT_OK: payload[0] equal to `cfg_ident`, 43_command_codec.md R221. -/
  | identOk
  /-- IDENT_MISMATCH: payload[0] different from `cfg_ident`, 43_command_codec.md R221. -/
  | identMismatch (b : Byte)
  /-- OP_REQUEST_TELEMETRY: payload[1] = 0x01 under the default table's arm, 43_command_codec.md R213. -/
  | opRequestTelemetry
  /-- OP_ARM: payload[1] an opcode of `cfg_optable`, 43_command_codec.md R223. -/
  | opArm (op : Byte)
  /-- OP_UNKNOWN: payload[1] with no arm, 43_command_codec.md R222. -/
  | opUnknown (op : Byte)
  deriving DecidableEq, Repr

/-- The row each instruction stands for. -/
def Instr.mnemonic : Instr → Mnemonic
  | .configure .. => .configure
  | .bindTransport => .bindTransport
  | .bindDiag => .bindDiag
  | .crcClear => .crcClear
  | .crcFeed _ => .crcFeed
  | .crcRead => .crcRead
  | .crcCompute _ => .crcCompute
  | .txSend _ => .txSend
  | .rxReceive => .rxReceive
  | .decode _ => .decode
  | .encRequest _ => .encRequest
  | .encFields .. => .encFields
  | .request _ => .request
  | .readField .. => .readField
  | .poll _ => .poll
  | .arrive _ => .arrive
  | .startShort => .startShort
  | .startLong => .startLong
  | .startOther _ => .startOther
  | .length _ => .length
  | .data _ => .data
  | .terminator => .terminator
  | .notTerminator _ => .notTerminator
  | .identOk => .identOk
  | .identMismatch _ => .identMismatch
  | .opRequestTelemetry => .opRequestTelemetry
  | .opArm _ => .opArm
  | .opUnknown _ => .opUnknown

/-- Who acts when a row runs: the "format" column of spec/opcode_table.json. -/
inductive Format where
  | hostOp
  | blockStep
  | environmentStep
  | wireByte
  deriving DecidableEq, Repr

/-- The "format" column of spec/opcode_table.json. -/
def Mnemonic.format : Mnemonic → Format
  | .configure | .bindTransport | .bindDiag | .crcClear | .crcFeed | .crcRead | .crcCompute | .txSend | .rxReceive
  | .decode | .encRequest | .encFields | .request | .readField => .hostOp
  | .poll => .blockStep
  | .arrive => .environmentStep
  | .startShort | .startLong | .startOther | .length | .data | .terminator | .notTerminator
  | .identOk | .identMismatch | .opRequestTelemetry | .opArm | .opUnknown => .wireByte

/-! ## The written form of a host operation and of an environment step -/

/-- An operand as a line writes it (44_session_ops.md; 00_scope.md section 4). -/
inductive Operand where
  | num (n : Nat)
  | bytes (s : List Byte)
  | table (rows : List (Nat × Arm))
  | values (vs : List (Kind × FieldIn))
  | record (r : Record)
  | slot (s : Slot)
  deriving DecidableEq, Repr

/-- One line of a program: `MNEMONIC operand, operand`, `ARRIVE b` or `POLL @t` (00_scope.md section 4), with the time
`now` the environment supplies with the step (00_scope.md R21). -/
structure HostLine where
  now : Nat
  name : Mnemonic
  operands : List Operand
  deriving DecidableEq, Repr

/-! ## The wire rows by context -/

/-- Where the receiver is when it takes a byte (30_encoding.md R110): in AwaitStart; in AwaitShortLength; in Accumulating
with `rx_count + 1 ≠ rx_expected`; in Accumulating with `rx_count + 1 = rx_expected`. -/
inductive RxContext where
  | start
  | length
  | middle
  | last
  deriving DecidableEq, Repr

/-- Where in which table of selectors a wire byte is met (30_encoding.md R110). -/
inductive WireContext where
  | rx (c : RxContext)
  | ident (cfgIdent : Byte)
  | opcode (table : OpTable)
  deriving DecidableEq, Repr

/-- The rows a byte taken by the receiver can select. -/
inductive RxRow where
  | startShort
  | startLong
  | startOther (b : Byte)
  | length (b : Byte)
  | data (b : Byte)
  | terminator
  | notTerminator (b : Byte)
  deriving DecidableEq, Repr

/-- The rows payload[0] can select. -/
inductive IdentRow where
  | identOk
  | identMismatch (b : Byte)
  deriving DecidableEq, Repr

/-- The rows payload[1] can select. -/
inductive OpRow where
  | requestTelemetry
  | arm (op : Byte)
  | unknown (op : Byte)
  deriving DecidableEq, Repr

/-- A receiver row as an instruction. -/
def RxRow.toInstr : RxRow → Instr
  | .startShort => .startShort
  | .startLong => .startLong
  | .startOther b => .startOther b
  | .length b => .length b
  | .data b => .data b
  | .terminator => .terminator
  | .notTerminator b => .notTerminator b

/-- An identifier row as an instruction. -/
def IdentRow.toInstr : IdentRow → Instr
  | .identOk => .identOk
  | .identMismatch b => .identMismatch b

/-- An opcode row as an instruction. -/
def OpRow.toInstr : OpRow → Instr
  | .requestTelemetry => .opRequestTelemetry
  | .arm op => .opArm op
  | .unknown op => .opUnknown op

/-- What the decoder reads: a line of the host or the environment, or a byte of the wire met in a context. -/
inductive Fetched where
  | line (l : HostLine)
  | wire (c : WireContext) (b : Byte)
  deriving DecidableEq, Repr

end Sys2Proof
end

