-- ==== Sys2Proof/Machine/Cells.lean ====
section
/-!
DEFINITION. The one canonical form of sparse data by key, for `rx_buf` (10_state.md R44), the record slots
(10_state.md R49) and the opcode table (43_command_codec.md R211): keys strictly rising, an unlisted key holding nothing.
-/

namespace Sys2Proof

/-- What the map holds at key `k`; `none` where `k` is not listed. -/
def Cells.read {α : Type} : Cells α → Nat → Option α
  | [], _ => none
  | (j, v) :: rest, k => if j = k then some v else Cells.read rest k

/-- The map with `v` at key `k`, in canonical form. -/
def Cells.write {α : Type} : Cells α → Nat → α → Cells α
  | [], k, v => [(k, v)]
  | (j, w) :: rest, k, v =>
    if k < j then (k, v) :: (j, w) :: rest
    else if k = j then (k, v) :: rest
    else (j, w) :: Cells.write rest k v

/-- The canonical form: keys strictly rising. -/
abbrev Cells.wf {α : Type} (m : Cells α) : Prop :=
  List.Pairwise (fun a b : Nat × α => a.1 < b.1) m

/-- The canonical map of a list of rows; a later row for a key replaces an earlier one. -/
def Cells.ofList {α : Type} (rows : List (Nat × α)) : Cells α :=
  rows.foldl (fun m r => Cells.write m r.1 r.2) []

/-- The receive frame buffer `rx_buf`, 10_state.md R44: each cell is an index and a byte (`Host.Cell`). An index that is not
listed is unwritten. -/
abbrev Memory := Cells Byte

/-- The canonical form of the buffer's cells. -/
abbrev Memory.wf (m : Memory) : Prop := Cells.wf m

end Sys2Proof
end

