-- ==== Sys2Proof/Machine/Operands.lean ====
section
/-!
DEFINITION. The operand forms: field kinds and their widths, big-endian reads and writes, the value of a raw word, slots and
their records, and the well-formedness of an opcode table (00_scope.md section 4; 20_memory.md R72; 30_encoding.md R104 to
R109; 43_command_codec.md R212 to R219 and R233).
-/

namespace Sys2Proof

/-! ## Big-endian access -/

/-- `MemRead(s, i, n)`, 00_scope.md section 4: the big-endian value of bytes `s[i..i+n)`. -/
def memRead (s : List Byte) (i n : Nat) : Nat :=
  ((s.drop i).take n).foldl (fun acc b => acc * 256 + b.toNat) 0

/-- `v` as `n` big-endian bytes. -/
def bigEndian : Nat → Nat → List Byte
  | 0, _ => []
  | n + 1, v => BitVec.ofNat 8 (v / 256 ^ n) :: bigEndian n v

/-- `MemWrite(s, i, n, v)`, 00_scope.md section 4: `v` as `n` big-endian bytes in `s[i..i+n)`. -/
def memWrite (s : List Byte) (i n v : Nat) : List Byte :=
  s.take i ++ bigEndian n v ++ s.drop (i + n)

/-! ## Kinds -/

/-- `w(kind)`, the width in bytes: 43_command_codec.md R214. -/
def Kind.width : Kind → Nat
  | .u8 | .i8 | .bool8 => 1
  | .u16 | .i16 | .fix16 _ => 2
  | .u32 | .i32 | .fix32 _ | .f32auto => 4

/-- A fixed-point kind has a divisor of at least 1: 43_command_codec.md R212 check 4. -/
def Kind.divisorOk : Kind → Bool
  | .fix16 s | .fix32 s => decide (1 ≤ s)
  | .u8 | .i8 | .bool8 | .u16 | .i16 | .u32 | .i32 | .f32auto => true

/-- The width of a raw word in bytes. -/
def Raw.width : Raw → Nat
  | .w8 _ => 1
  | .w16 _ => 2
  | .w32 _ => 4

/-- The raw word read as an unsigned integer. -/
def Raw.toNat : Raw → Nat
  | .w8 v => v.toNat
  | .w16 v => v.toNat
  | .w32 v => v.toNat

/-- The raw word sign-extended from its top bit: 43_command_codec.md R216. -/
def Raw.toInt : Raw → Int
  | .w8 v => v.toInt
  | .w16 v => v.toInt
  | .w32 v => v.toInt

/-- The raw word of `w` bytes with value `n`. -/
def Raw.ofNat (w n : Nat) : Raw :=
  if w = 1 then .w8 (BitVec.ofNat 8 n)
  else if w = 2 then .w16 (BitVec.ofNat 16 n)
  else .w32 (BitVec.ofNat 32 n)

/-- `get_field(kind, p, i)`, 43_command_codec.md R215: the raw word at payload offset `i`. -/
def getField (k : Kind) (p : List Byte) (i : Nat) : Raw :=
  Raw.ofNat k.width (memRead p i k.width)

/-- The value of `vs`'s pair has the shape ENC_FIELDS asks for its kind: a bool for BOOL8, else a raw word of the kind's
width (43_command_codec.md R232). -/
def FieldIn.fits (k : Kind) (v : FieldIn) : Bool :=
  match v with
  | .bool _ => decide (k = .bool8)
  | .raw r => decide (k ≠ .bool8) && decide (r.width = k.width)

/-- `put_field(kind, v)`, 43_command_codec.md R233. -/
def putField (k : Kind) (v : FieldIn) : List Byte :=
  match v with
  | .bool b => if b then [0x01] else [0x00]
  | .raw r => memWrite (List.replicate k.width 0) 0 k.width r.toNat

/-- The value READ_FIELD answers with: an integer, a truth value, or an exact rational (30_encoding.md R104). -/
inductive FieldValue where
  | int (v : Int)
  | bool (b : Bool)
  | rat (q : Rat)
  deriving DecidableEq, Repr

/-- A fixed-point value, `sext(raw) / s` as an exact rational: 43_command_codec.md R217. -/
def fixValue (s : Nat) (r : Raw) : Rat :=
  if s = 0 then Config.zeroDivisorValue r.toNat else mkRat r.toInt s

/-- `value(k, raw)`, 30_encoding.md R104. -/
def fieldValue (k : Kind) (r : Raw) : FieldValue :=
  match k with
  | .u8 | .u16 | .u32 => .int r.toNat
  | .i8 | .i16 | .i32 => .int r.toInt
  | .bool8 => .bool (decide (r.toNat ≠ 0))
  | .fix16 s => .rat (fixValue s r)
  | .fix32 s => .rat (fixValue s r)
  | .f32auto => .rat (Config.f32AutoDecode (BitVec.ofNat 32 r.toNat))

/-! ## Slots -/

/-- The record a slot belongs to: 10_state.md R49. -/
def Slot.record : Slot → Record
  | .motorCurrent | .dutyCycle | .rpm | .inputVoltage | .switchState | .pidOutput => .telemetry
  | .lightMode | .idleWarningTimeout | .engineSoundVolume | .overspeedWarning | .featureFlags => .settings
  | .added r _ => r

/-- The number a slot is kept under in `State.slots`; different slots have different numbers (log 16). -/
def Slot.key : Slot → Nat
  | .motorCurrent => 0
  | .dutyCycle => 1
  | .rpm => 2
  | .inputVoltage => 3
  | .switchState => 4
  | .pidOutput => 5
  | .lightMode => 6
  | .idleWarningTimeout => 7
  | .engineSoundVolume => 8
  | .overspeedWarning => 9
  | .featureFlags => 10
  | .added .telemetry n => 11 + 2 * n
  | .added .settings n => 12 + 2 * n

/-! ## The opcode table -/

/-- `W`, the total width of a list of fields: 43_command_codec.md R212 check 5. -/
def fieldsWidth : List Field → Nat
  | [] => 0
  | f :: fs => f.kind.width + fieldsWidth fs

/-- `W` of an arm. -/
def Arm.width (a : Arm) : Nat := fieldsWidth a.fields

/-- The arm of an opcode, if the table has one: 43_command_codec.md R211. -/
def OpTable.arm (t : OpTable) (op : Byte) : Option Arm := Cells.read t op.toNat

/-- The default table's arm: 43_command_codec.md R213. -/
def telemetryArm : Arm :=
  { name := "RequestTelemetry", record := .telemetry, fields := [⟨.u8, .switchState⟩] }

/-- The default table: 43_command_codec.md R213. -/
def defaultTable : OpTable := [(0x01, telemetryArm)]

/-- The opcode the default table's arm has. -/
abbrev telemetryOpcode : Byte := 0x01

/-- The arm decodes as the default table's arm does; its name is a label only (43_command_codec.md R211). -/
def Arm.isTelemetry (a : Arm) : Bool :=
  decide (a.record = telemetryArm.record) && decide (a.fields = telemetryArm.fields)

/-- All fields of all arms. -/
def OpTable.fields (t : OpTable) : List Field := t.flatMap (fun row => row.2.fields)

/-- The operand is a finite map from bytes, in its canonical listing (43_command_codec.md R211, log 23). -/
def OpTable.isMap (t : OpTable) : Bool :=
  decide (Cells.wf t) && t.all (fun row => decide (row.1 < 256))

/-- Check 1 of 43_command_codec.md R212: an arm's slots belong to its record. -/
def Arm.slotsInRecord (a : Arm) : Bool := a.fields.all (fun f => decide (f.slot.record = a.record))

/-- Check 2 of 43_command_codec.md R212: no slot twice in one arm. -/
def Arm.slotsDistinct (a : Arm) : Bool := decide (a.fields.map Field.slot).Nodup

/-- Check 3 of 43_command_codec.md R212: every arm that names a slot gives it the same kind. -/
def OpTable.kindsAgree (t : OpTable) : Bool :=
  t.fields.all (fun f => t.fields.all (fun g => decide (f.slot = g.slot → f.kind = g.kind)))

/-- Check 4 of 43_command_codec.md R212: every divisor is at least 1. -/
def Arm.divisorsOk (a : Arm) : Bool := a.fields.all (fun f => f.kind.divisorOk)

/-- Check 5 of 43_command_codec.md R212: the arm fits a short frame's payload. -/
def Arm.fitsPayload (a : Arm) : Bool := decide (2 + a.width ≤ Config.plMax)

/-- Well-formedness of `cfg_optable`: the five checks of 43_command_codec.md R212. -/
def OpTable.wellFormed (t : OpTable) : Bool :=
  t.all (fun row => row.2.slotsInRecord && row.2.slotsDistinct && row.2.divisorsOk && row.2.fitsPayload) &&
    t.kindsAgree

end Sys2Proof
end

