-- ==== Sys2Proof/WellFormed.lean ====
section
/-!
DEFINITION. Which terms of `Instr` are instructions: the operand domains of 44_session_ops.md, 43_command_codec.md and
spec/opcode_table.json. What the spec answers with an outcome or with the `refused` mark (an OPTABLE that fails
43_command_codec.md R212, a crc_init other than 0xFFFF and 0x0000, a payload that is too long) is a well-formed operand.
-/

namespace Sys2Proof

/-- A pair of ENC_FIELDS: a field kind of 30_encoding.md R104 with a value of its shape (43_command_codec.md R232). -/
def fieldInOk (kv : Kind × FieldIn) : Bool := kv.1.divisorOk && kv.2.fits kv.1

/-- The operands lie in the domains the spec gives them. -/
def Instr.wellFormed : Instr → Bool
  | .configure _ _ _ _ t => t.isMap
  | .bindTransport => true
  | .bindDiag => true
  | .crcClear => true
  | .crcFeed _ => true
  | .crcRead => true
  | .crcCompute _ => true
  | .txSend _ => true
  | .rxReceive => true
  | .decode _ => true
  | .encRequest _ => true
  | .encFields _ vs => vs.all fieldInOk
  | .request _ => true
  | .readField r s => decide (s.record = r)
  | .poll _ => true
  | .arrive _ => true
  | .startShort => true
  | .startLong => true
  | .startOther b => decide (b ≠ Config.startShort) && decide (b ≠ Config.startLong)
  | .length _ => true
  | .data _ => true
  | .terminator => true
  | .notTerminator b => decide (b ≠ Config.terminator)
  | .identOk => true
  | .identMismatch _ => true
  | .opRequestTelemetry => true
  | .opArm _ => true
  | .opUnknown _ => true

end Sys2Proof
end

