-- ==== Sys2Proof/Decode.lean ====
section
/-!
DEFINITION. The decoder and the encoder. A host operation or environment step is selected by its name
(30_encoding.md, opening); a wire byte by its value and the context the block meets it in (30_encoding.md R110,
spec/opcode_table.json). Both decoders are total; the line decoder rejects by name.
-/

namespace Sys2Proof

/-- Why a line is no operation of the block. -/
inductive Reject where
  /-- The name is that of a wire row: no host or environment issues it, the block selects it from a byte. -/
  | wireRow
  /-- The operands are not those the operation takes, by number or by form. -/
  | operandShape
  /-- A number is too large for its operand's width. -/
  | operandRange
  /-- The opcode table names an opcode twice, or one above 0xFF: no finite map from bytes. -/
  | notAMap
  /-- The operands lie outside the operation's domain (`Instr.wellFormed`). -/
  | illFormed
  deriving DecidableEq, Repr

/-! ## Lines -/

/-- A `u8` operand. -/
def withByte (n : Nat) (k : Byte → Except Reject Instr) : Except Reject Instr :=
  if n < 256 then k (BitVec.ofNat 8 n) else .error .operandRange

/-- A `u16` operand. -/
def withWord16 (n : Nat) (k : Word16 → Except Reject Instr) : Except Reject Instr :=
  if n < 65536 then k (BitVec.ofNat 16 n) else .error .operandRange

/-- An opcode table operand, in any order of its rows. -/
def withTable (rows : List (Nat × Arm)) (k : OpTable → Except Reject Instr) : Except Reject Instr :=
  if rows.all (fun r => decide (r.1 < 256)) && decide (rows.map Prod.fst).Nodup then k (Cells.ofList rows)
  else .error .notAMap

/-- The instruction, if its operands lie in their domains. -/
def checked (i : Instr) : Except Reject Instr :=
  if i.wellFormed then .ok i else .error .illFormed

/-- An operation with no operands. -/
def noOperands (ops : List Operand) (i : Instr) : Except Reject Instr :=
  match ops with
  | [] => .ok i
  | _ :: _ => .error .operandShape

/-- An operation with one `u8` operand. -/
def oneByte (ops : List Operand) (f : Byte → Instr) : Except Reject Instr :=
  match ops with
  | [.num n] => withByte n (fun b => .ok (f b))
  | _ => .error .operandShape

/-- An operation with one byte sequence. -/
def oneSequence (ops : List Operand) (f : List Byte → Instr) : Except Reject Instr :=
  match ops with
  | [.bytes s] => .ok (f s)
  | _ => .error .operandShape

/-- CONFIGURE timeout, ident, crc_init, req_sentinel, optable: 44_session_ops.md R250. -/
def decodeConfigure (ops : List Operand) : Except Reject Instr :=
  match ops with
  | [.num timeout, .num ident, .num crcInit, .num sentinel, .table rows] =>
    withByte ident fun id => withWord16 crcInit fun ci => withByte sentinel fun rs =>
      withTable rows fun t => .ok (.configure timeout id ci rs t)
  | _ => .error .operandShape

/-- ENC_FIELDS op, vs: 43_command_codec.md R232. -/
def decodeEncFields (ops : List Operand) : Except Reject Instr :=
  match ops with
  | [.num op, .values vs] => withByte op fun b => checked (.encFields b vs)
  | _ => .error .operandShape

/-- READ_FIELD record, slot: 44_session_ops.md R258. -/
def decodeReadField (ops : List Operand) : Except Reject Instr :=
  match ops with
  | [.record r, .slot s] => checked (.readField r s)
  | _ => .error .operandShape

/-- The operation a line names. -/
def decodeLine (l : HostLine) : Except Reject Instr :=
  match l.name with
  | .configure => decodeConfigure l.operands
  | .bindTransport => noOperands l.operands .bindTransport
  | .bindDiag => noOperands l.operands .bindDiag
  | .crcClear => noOperands l.operands .crcClear
  | .crcFeed => oneByte l.operands .crcFeed
  | .crcRead => noOperands l.operands .crcRead
  | .crcCompute => oneSequence l.operands .crcCompute
  | .txSend => oneSequence l.operands .txSend
  | .rxReceive => noOperands l.operands .rxReceive
  | .decode => oneSequence l.operands .decode
  | .encRequest => oneByte l.operands .encRequest
  | .encFields => decodeEncFields l.operands
  | .request => oneByte l.operands .request
  | .readField => decodeReadField l.operands
  | .poll => noOperands l.operands (.poll l.now)
  | .arrive => oneByte l.operands .arrive
  | .startShort => .error .wireRow
  | .startLong => .error .wireRow
  | .startOther => .error .wireRow
  | .length => .error .wireRow
  | .data => .error .wireRow
  | .terminator => .error .wireRow
  | .notTerminator => .error .wireRow
  | .identOk => .error .wireRow
  | .identMismatch => .error .wireRow
  | .opRequestTelemetry => .error .wireRow
  | .opArm => .error .wireRow
  | .opUnknown => .error .wireRow

/-! ## Wire bytes -/

/-- The row a byte taken by the receiver selects: 30_encoding.md R106 and R110. -/
def decodeRx (c : RxContext) (b : Byte) : RxRow :=
  match c with
  | .start =>
    if b = Config.startShort then .startShort
    else if b = Config.startLong then .startLong
    else .startOther b
  | .length => .length b
  | .middle => .data b
  | .last => if b = Config.terminator then .terminator else .notTerminator b

/-- The row payload[0] selects: 43_command_codec.md R221. -/
def decodeIdent (cfgIdent b : Byte) : IdentRow :=
  if b = cfgIdent then .identOk else .identMismatch b

/-- The row payload[1] selects: 43_command_codec.md R222 and R223. Opcode 0x01 under an arm with the default table's record
and fields is the row OP_REQUEST_TELEMETRY; any other opcode with an arm is the row OP_ARM (log 25). -/
def decodeOp (t : OpTable) (op : Byte) : OpRow :=
  match t.arm op with
  | none => .unknown op
  | some a => if op = telemetryOpcode ∧ a.isTelemetry = true then .requestTelemetry else .arm op

/-- The row a wire byte selects in its context. -/
def decodeWire (c : WireContext) (b : Byte) : Instr :=
  match c with
  | .rx r => (decodeRx r b).toInstr
  | .ident cfg => (decodeIdent cfg b).toInstr
  | .opcode t => (decodeOp t b).toInstr

/-- The decoder, total on every line and on every byte in every context. -/
def decode (f : Fetched) : Except Reject Instr :=
  match f with
  | .line l => decodeLine l
  | .wire c b => .ok (decodeWire c b)

/-! ## Encoder -/

/-- The line that names an operation, taken at time `now`; POLL's own time is its operand. A wire row has no line. -/
def encodeLine (now : Nat) (i : Instr) : Option HostLine :=
  match i with
  | .configure timeout ident crcInit sentinel t =>
    some ⟨now, .configure, [.num timeout, .num ident.toNat, .num crcInit.toNat, .num sentinel.toNat, .table t]⟩
  | .bindTransport => some ⟨now, .bindTransport, []⟩
  | .bindDiag => some ⟨now, .bindDiag, []⟩
  | .crcClear => some ⟨now, .crcClear, []⟩
  | .crcFeed b => some ⟨now, .crcFeed, [.num b.toNat]⟩
  | .crcRead => some ⟨now, .crcRead, []⟩
  | .crcCompute s => some ⟨now, .crcCompute, [.bytes s]⟩
  | .txSend p => some ⟨now, .txSend, [.bytes p]⟩
  | .rxReceive => some ⟨now, .rxReceive, []⟩
  | .decode p => some ⟨now, .decode, [.bytes p]⟩
  | .encRequest op => some ⟨now, .encRequest, [.num op.toNat]⟩
  | .encFields op vs => some ⟨now, .encFields, [.num op.toNat, .values vs]⟩
  | .request op => some ⟨now, .request, [.num op.toNat]⟩
  | .readField r s => some ⟨now, .readField, [.record r, .slot s]⟩
  | .poll t => some ⟨t, .poll, []⟩
  | .arrive b => some ⟨now, .arrive, [.num b.toNat]⟩
  | .startShort => none
  | .startLong => none
  | .startOther _ => none
  | .length _ => none
  | .data _ => none
  | .terminator => none
  | .notTerminator _ => none
  | .identOk => none
  | .identMismatch _ => none
  | .opRequestTelemetry => none
  | .opArm _ => none
  | .opUnknown _ => none

/-- The byte of a receiver row. -/
def RxRow.byte : RxRow → Byte
  | .startShort => Config.startShort
  | .startLong => Config.startLong
  | .startOther b => b
  | .length b => b
  | .data b => b
  | .terminator => Config.terminator
  | .notTerminator b => b

/-- The context a receiver row is selected in. -/
def RxRow.context : RxRow → RxContext
  | .startShort => .start
  | .startLong => .start
  | .startOther _ => .start
  | .length _ => .length
  | .data _ => .middle
  | .terminator => .last
  | .notTerminator _ => .last

/-- The byte that selects a wire row in a context, by 30_encoding.md R110; `none` where no byte selects it there. -/
def encodeWire (c : WireContext) (i : Instr) : Option Byte :=
  match c, i with
  | .rx .start, .startShort => some 0x02
  | .rx .start, .startLong => some 0x03
  | .rx .start, .startOther b => if b = 0x02 ∨ b = 0x03 then none else some b
  | .rx .length, .length b => some b
  | .rx .middle, .data b => some b
  | .rx .last, .terminator => some 0x03
  | .rx .last, .notTerminator b => if b = 0x03 then none else some b
  | .ident cfg, .identOk => some cfg
  | .ident cfg, .identMismatch b => if b = cfg then none else some b
  | .opcode t, .opRequestTelemetry => if ((t.arm 0x01).map Arm.isTelemetry).getD false then some 0x01 else none
  | .opcode t, .opArm op =>
    if (t.arm op).isNone ∨ (op = 0x01 ∧ ((t.arm op).map Arm.isTelemetry).getD false = true) then none else some op
  | .opcode t, .opUnknown op => if (t.arm op).isNone then some op else none
  | _, _ => none

/-- The encoder: a line for an operation, the selecting byte for a wire row. -/
def encode (c : WireContext) (now : Nat) (i : Instr) : Option Fetched :=
  match encodeLine now i with
  | some l => some (.line l)
  | none => (encodeWire c i).map (.wire c)

/-! ## The table's words -/

/-- The context the opcode table gives a word of 8 bits: 0x01 is the fixed match of OP_REQUEST_TELEMETRY alone, met at
payload[1] under the default table; every other byte is read where a fresh call reads its first byte, AwaitStart (log 9). -/
def tableContext (b : Byte) : WireContext :=
  if b = telemetryOpcode then .opcode defaultTable else .rx .start

/-- The instruction the decoder reads from a word of spec/opcode_table.json. Only the wire rows have one, of 8 bits. -/
def decodeTableWord (nbits w : Nat) : Option Instr :=
  if nbits = 8 ∧ w < 256 then
    match decode (.wire (tableContext (BitVec.ofNat 8 w)) (BitVec.ofNat 8 w)) with
    | .ok i => some i
    | .error _ => none
  else none

end Sys2Proof
end

