-- ==== Sys2Proof/Machine/State.lean ====
section
/-!
DEFINITION. The state (10_state.md, 20_memory.md R70, 44_session_ops.md R251), as plain data; what goes out of it; how a step
can stop; and the state a run starts from.
-/

namespace Sys2Proof.Machine

/-- `call`, 10_state.md R42. -/
inductive Call where
  | none
  | receive
  | request
  deriving DecidableEq, Repr

/-- `rx_state`, 10_state.md R43. -/
inductive RxState where
  | awaitStart
  | awaitShortLength
  | awaitLongLength
  | accumulating
  deriving DecidableEq, Repr

/-- The outcome codes, 60_exceptions.md R281; their numbers are in Machine/Flags.lean. -/
inductive OutcomeCode where
  | ok
  | timeout
  | noTransport
  | unsupportedLongFrame
  | bufferOverflow
  | checksumMismatch
  | identifierMismatch
  | unknownOpcode
  | truncated
  | payloadTooLong
  deriving DecidableEq, Repr

/-- The diagnostic events, 60_exceptions.md R295. -/
inductive Diag where
  | malformedStart (b : Byte)
  | frameAccepted (len : Byte)
  | checksumMismatch (computed received : Word16)
  | frameRejected (code : OutcomeCode) (detail : Byte)
  deriving DecidableEq, Repr

/-- What `respond` gives the host (00_scope.md section 4), in the forms of 95_test_vectors.md section 0. -/
inductive Response where
  /-- `(OK)`. -/
  | done
  /-- `(OK, v)` of CRC_READ and CRC_COMPUTE. -/
  | crc (v : Word16)
  /-- TX_SEND: the outcome and `bytes_written`. -/
  | sent (code : OutcomeCode) (written : Nat)
  /-- RX_RECEIVE: the outcome, the payload's length and the payload. -/
  | received (code : OutcomeCode) (len : Nat) (payload : List Byte)
  /-- DECODE and REQUEST: the outcome and the decoded opcode, or `-`. -/
  | decoded (code : OutcomeCode) (opcode : Option Byte)
  /-- ENC_REQUEST and ENC_FIELDS: the outcome and the payload, or `-`. -/
  | encoded (code : OutcomeCode) (payload : Option (List Byte))
  /-- READ_FIELD: `(OK, kind, raw, value)`. -/
  | field (kind : Kind) (raw : Raw) (value : FieldValue)
  deriving DecidableEq, Repr

/-- What a written record slot holds, 10_state.md R50. -/
structure SlotVal where
  kind : Kind
  raw : Raw
  deriving DecidableEq, Repr

/-- The state of the block and of the environment it needs; names as in 10_state.md. -/
structure State where
  /-- R34. -/
  cfg_timeout : Nat
  /-- R35. -/
  cfg_ident : Byte
  /-- R36. -/
  cfg_crc_init : Word16
  /-- R37. -/
  cfg_req_sentinel : Byte
  /-- R38. -/
  cfg_optable : OpTable
  /-- 44_session_ops.md R251. -/
  configured : Bool
  /-- R39. -/
  transport_bound : Bool
  /-- R40. -/
  diag_bound : Bool
  /-- R41. -/
  crc_acc : Word16
  /-- R42. -/
  call : Call
  /-- R43. -/
  rx_state : RxState
  /-- R44. -/
  rx_buf : Memory
  /-- R45. -/
  rx_count : Nat
  /-- R46. -/
  rx_expected : Nat
  /-- R47. -/
  rx_len : Byte
  /-- R48. -/
  rx_deadline : Nat
  /-- The payload buffer of 20_memory.md R70: the bytes it holds, at most `Config.plCap` of them (00_scope.md R16, log 14). -/
  payload : List Byte
  /-- The record slots by `Slot.key`, R49 to R51: an unlisted slot is unwritten. -/
  slots : Cells SlotVal
  /-- R53. -/
  rx_fifo : List Byte
  /-- R54. -/
  tx_log : List Byte
  /-- R55. -/
  diag_log : List Diag
  /-- R56. -/
  refused : Bool
  /-- R57. -/
  fault : Bool
  /-- The environment's time at the step under way, 00_scope.md R21 (log 10). -/
  now : Nat
  /-- MODEL's own: what the host and the environment do next, oldest first (log 7). -/
  inputs : List HostLine
  /-- MODEL's own: the responses given so far, oldest first (log 15). -/
  responses : List Response
  /-- MODEL's own: the transport's answers to the next writes, where fixed (log 11). -/
  tx_answers : List Nat
  /-- MODEL's own: how many writes the transport has answered (log 11). -/
  tx_draws : Nat
  deriving DecidableEq, Repr

/-- How the machine stops. Both are safe, and no state of a run from reset meets one. -/
inductive Fault where
  /-- A byte is taken in AwaitLongLength, a state 41_frame_receiver.md R161 gives no transitions. Raised by POLL. Safe. -/
  | noTransition
  /-- A byte would be stored in `rx_buf` at index 260 or above, which does not exist (20_memory.md R79). Raised by DATA,
  TERMINATOR, NOT_TERMINATOR and the POLL that meets them. Safe. -/
  | rxBufIndex
  deriving DecidableEq, Repr

/-- Why an instruction has no meaning. -/
inductive Refusal where
  /-- The instruction's meaning is not written: raised by no arm of `exec` now. Safe. -/
  | notModelled (mnemonic : String)
  deriving DecidableEq, Repr

/-- What a step answers. -/
abbrev Result := Host.Outcome State Fault Refusal

/-- The state a run starts from: the block before its CONFIGURE, with nothing sent, received or pending (log 1, log 2, log 3).
The reset of the spec is the CONFIGURE operation (70_reset_and_hazards.md R320); every item of R321 that is not one of its
operands holds here already, but for `configured`. -/
def State.reset : State where
  cfg_timeout := 0
  cfg_ident := Config.identDefault
  cfg_crc_init := Config.crcInitDefault
  cfg_req_sentinel := 0
  cfg_optable := defaultTable
  configured := false
  transport_bound := false
  diag_bound := false
  crc_acc := Config.crcInitDefault
  call := .none
  rx_state := .awaitStart
  rx_buf := []
  rx_count := 0
  rx_expected := 0
  rx_len := 0
  rx_deadline := 0
  payload := []
  slots := []
  rx_fifo := []
  tx_log := []
  diag_log := []
  refused := false
  fault := false
  now := 0
  inputs := []
  responses := []
  tx_answers := []
  tx_draws := 0

end Sys2Proof.Machine
end

