-- ==== Sys2Proof/Machine/Flags.lean ====
section
/-!
DEFINITION. The block has no status flags (10_state.md R32). What stands in their place: the numbers of the outcome codes and
of the diagnostic events, the outcome a response carries, and the two sticky marks (60_exceptions.md R281, R295, R300, R301).
-/

namespace Sys2Proof.Machine

/-- The number of an outcome code: 60_exceptions.md R281. -/
def OutcomeCode.number : OutcomeCode → Nat
  | .ok => 0
  | .timeout => 1
  | .noTransport => 2
  | .unsupportedLongFrame => 3
  | .bufferOverflow => 4
  | .checksumMismatch => 5
  | .identifierMismatch => 6
  | .unknownOpcode => 7
  | .truncated => 8
  | .payloadTooLong => 9

/-- The number of a diagnostic event: 60_exceptions.md R295. -/
def Diag.number : Diag → Nat
  | .malformedStart _ => 1
  | .frameAccepted _ => 2
  | .checksumMismatch _ _ => 3
  | .frameRejected _ _ => 4

/-- The outcome a response carries. -/
def Response.code : Response → OutcomeCode
  | .done => .ok
  | .crc _ => .ok
  | .sent c _ => c
  | .received c _ _ => c
  | .decoded c _ => c
  | .encoded c _ => c
  | .field _ _ _ => .ok

/-- An input the model gives no meaning: the sticky `refused` mark is set and no response is given
(60_exceptions.md R300, 10_state.md R56). -/
def refuse (s : State) : State := { s with refused := true }

/-- The sticky `fault` mark is set and no response is given (60_exceptions.md R301, 10_state.md R57). -/
def markFault (s : State) : State := { s with fault := true }

end Sys2Proof.Machine
end

