-- ==== Sys2Proof/Machine/Ops.lean ====
section
/-!
DEFINITION. The named operations the meanings share: the response channel and the diagnostics port, the guards of a host
operation and of a wire row, raising an outcome that ends a call (this block's exception entry), the receive buffer, the
record slots, and the transport write.
-/

namespace Sys2Proof.Machine

/-! ## Responses, diagnostics, guards -/

/-- `respond(v)`, 00_scope.md section 4. -/
def respond (r : Response) (s : State) : State := { s with responses := s.responses ++ [r] }

/-- `emit Diag(code, args)`: appended only while `diag_bound` (60_exceptions.md R295). -/
def emit (d : Diag) (s : State) : State :=
  { s with diag_log := if s.diag_bound then s.diag_log ++ [d] else s.diag_log }

/-- A host operation other than CONFIGURE: it runs after CONFIGURE and while no call is open, and is refused otherwise
(60_exceptions.md R291, R300). -/
def hostOp (s run : State) : State :=
  if s.configured = true ∧ s.call = .none then run else refuse s

/-! ## Opening a call, and ending one with an outcome -/

/-- RX_RECEIVE and REQUEST open a call: 41_frame_receiver.md R150, 44_session_ops.md R256. The deadline counts from the
operation's own time (R167). -/
def openCall (c : Call) (s : State) : State :=
  { s with
    call := c
    rx_state := .awaitStart
    rx_count := 0
    rx_expected := 0
    rx_len := 0
    rx_deadline := s.now + s.cfg_timeout }

/-- The part of `end_call` every outcome has: 41_frame_receiver.md R151. -/
def closeCall (s : State) : State := { s with call := .none, rx_state := .awaitStart }

/-- TAKING AN EXCEPTION, as this block has it: a receiver step raises an outcome other than OK. `end_call` of
41_frame_receiver.md R151, with `complete_request` of 44_session_ops.md R257 for a Request call. An outcome saves nothing and
goes to no handler (60_exceptions.md R297), and there is no return from one: the host's next operation is the return (R298). -/
def failCall (o : OutcomeCode) (s : State) : State :=
  match s.call with
  | .receive => respond (.received o 0 []) (closeCall s)
  | .request => respond (.decoded o none) (closeCall s)
  | .none => closeCall s

/-! ## The receive buffer -/

/-- `rx_buf[i]`. A byte nothing has written is a free value (log 13). -/
def rxRead (s : State) (i : Nat) : Byte := (Cells.read s.rx_buf i).getD (Config.unwrittenRxByte i)

/-- `rx_buf[i .. i+n)`. -/
def rxSlice (s : State) (i n : Nat) : List Byte := (List.range n).map (fun j => rxRead s (i + j))

/-- `rx_buf[i] <- b`. -/
def rxStore (i : Nat) (b : Byte) (s : State) : State := { s with rx_buf := Cells.write s.rx_buf i b }

/-- `rx_buf[rx_count] <- b; rx_count <- rx_count + 1`, 41_frame_receiver.md R158. -/
def rxAppend (b : Byte) (s : State) : State :=
  { s with rx_buf := Cells.write s.rx_buf s.rx_count b, rx_count := s.rx_count + 1 }

/-- An append needs an index below 260 (20_memory.md R79). -/
def withRoom (s : State) (run : Result) : Result :=
  if s.rx_count < Config.rxBufCap then run else .fault .rxBufIndex

/-- Where the receiver is, while a call is open (30_encoding.md R110); `none` where it takes no byte by any rule. -/
def rxContext (s : State) : Option RxContext :=
  match s.call with
  | .none => none
  | .receive | .request =>
    match s.rx_state with
    | .awaitStart => some .start
    | .awaitShortLength => some .length
    | .awaitLongLength => none
    | .accumulating => if s.rx_count + 1 = s.rx_expected then some .last else some .middle

/-- The receiver row is the one its byte selects where the receiver is. -/
def rxSelects (s : State) (r : RxRow) : Bool :=
  match rxContext s with
  | some c => decide (decodeRx c r.byte = r)
  | none => false

/-- A receiver row runs where it is selected; elsewhere it is no input of the block (log 8). -/
def rxRow (r : RxRow) (s : State) (run : Result) : Result :=
  if rxSelects s r = true then run else .next (refuse s)

/-- The receive queue is `f` now: its head has been taken (20_memory.md R78). -/
def setFifo (f : List Byte) (s : State) : State := { s with rx_fifo := f }

/-! ## The payload buffer -/

/-- The payload a call returns or DECODE reads goes to the payload buffer, which has `PL_CAP` places (00_scope.md R16, 20_memory.md
R70, log 14). -/
def loadPayload (p : List Byte) (s : State) : State := { s with payload := p.take Config.plCap }

/-! ## Record slots -/

/-- What a record slot holds, 10_state.md R50. -/
def readSlot (s : State) (sl : Slot) : Option SlotVal := Cells.read s.slots sl.key

/-- Slot writes, all in one step (43_command_codec.md R225). -/
def writeSlots (ws : List (Slot × SlotVal)) (s : State) : State :=
  { s with slots := ws.foldl (fun m w => Cells.write m w.1.key w.2) s.slots }

/-! ## The transport write -/

/-- `draw_tx_accept(n)`: the transport's answer k to a write of n bytes, 0 ≤ k ≤ n, under no law
(42_frame_transmitter.md R193, log 11). -/
def drawTxAccept (n : Nat) (s : State) : Nat :=
  match s.tx_answers with
  | k :: _ => min k n
  | [] => min (Config.txAccept s.tx_draws n) n

/-- The frame is offered to the transport in one operation, and the bytes it takes go to `tx_log`. -/
def transmit (f : List Byte) (s : State) : State :=
  { s with
    tx_log := s.tx_log ++ f.take (drawTxAccept f.length s)
    tx_answers := s.tx_answers.tail
    tx_draws := s.tx_draws + 1 }

/-- The first three bytes of every request payload: 30_encoding.md R98. -/
def requestPayload (s : State) (op : Byte) : List Byte := [s.cfg_req_sentinel, s.cfg_ident, op]

end Sys2Proof.Machine
end

