-- ==== Sys2Proof/Machine/Checksum.lean ====
section
/-!
DEFINITION. The checksum engine, 40_checksum.md: the function (section 1) and its four host operations (section 2).
-/

namespace Sys2Proof.Machine

/-! ## The function -/

/-- One of the eight shifts of `crc_step`, 40_checksum.md R131. -/
def crcShift (c : Word16) : Word16 :=
  if c.getLsbD 15 = true then (c <<< 1) ^^^ Config.crcPoly else c <<< 1

/-- `crc_step(c, b)`, 40_checksum.md R131. -/
def crcStep (c : Word16) (b : Byte) : Word16 :=
  Nat.repeat crcShift 8 (c ^^^ (b.setWidth 16 <<< 8))

/-- `T[i]`, the CRC table of 40_checksum.md R132. -/
def crcTable (i : Byte) : Word16 := crcStep 0x0000 i

/-- `checksum(s)` from the initial value `init`, 40_checksum.md R133. -/
def checksum (init : Word16) (s : List Byte) : Word16 := s.foldl crcStep init

/-! ## Host operations -/

/-- CRC_CLEAR, 40_checksum.md R135. -/
def execCrcClear (s : State) : Result :=
  .next (hostOp s (respond .done { s with crc_acc := s.cfg_crc_init }))

/-- CRC_FEED, 40_checksum.md R136. -/
def execCrcFeed (b : Byte) (s : State) : Result :=
  .next (hostOp s (respond .done { s with crc_acc := crcStep s.crc_acc b }))

/-- CRC_READ, 40_checksum.md R137. -/
def execCrcRead (s : State) : Result :=
  .next (hostOp s (respond (.crc s.crc_acc) s))

/-- CRC_COMPUTE, 40_checksum.md R138. -/
def execCrcCompute (bytes : List Byte) (s : State) : Result :=
  .next (hostOp s (respond (.crc (checksum s.cfg_crc_init bytes)) s))

end Sys2Proof.Machine
end

