-- ==== Sys2Proof/Machine/Transmitter.lean ====
section
/-!
DEFINITION. The frame transmitter, 42_frame_transmitter.md.
-/

namespace Sys2Proof.Machine

/-- `pack(p)`, 42_frame_transmitter.md R190, for a payload of at most 255 bytes. -/
def pack (init : Word16) (p : List Byte) : List Byte :=
  [Config.startShort, BitVec.ofNat 8 p.length] ++ p ++ bigEndian 2 (checksum init p).toNat ++ [Config.terminator]

/-- TX_SEND, 42_frame_transmitter.md R193. -/
def execTxSend (p : List Byte) (s : State) : Result :=
  .next (hostOp s (
    if s.transport_bound = false then respond (.sent .noTransport 0) s
    else if Config.plMax < p.length then respond (.sent .payloadTooLong 0) s
    else
      let f := pack s.cfg_crc_init p
      respond (.sent .ok (drawTxAccept f.length s)) (transmit f s)))

end Sys2Proof.Machine
end

