-- ==== Sys2Proof/Machine/Codec.lean ====
section
/-!
DEFINITION. The command codec, 43_command_codec.md: the rows a payload's first two bytes select, DECODE, and the encoders.
Each row runs from the byte that selects it to the end of the decode, in the step that began it (20_memory.md R77).
-/

namespace Sys2Proof.Machine

/-- A decode ends with an outcome other than OK: the FRAME_REJECTED event, then the response (43_command_codec.md R220). -/
def rejectDecode (o : OutcomeCode) (detail : Byte) (opcode : Option Byte) (s : State) : State :=
  respond (.decoded o opcode) (emit (.frameRejected o detail) s)

/-- The slot writes of an arm's fields, from payload offset `i` on: 43_command_codec.md R220 and R223. -/
def fieldWrites : List Field → List Byte → Nat → List (Slot × SlotVal)
  | [], _, _ => []
  | f :: fs, p, i => (f.slot, ⟨f.kind, getField f.kind p i⟩) :: fieldWrites fs p (i + f.kind.width)

/-- The arm takes its fields, all or nothing: 43_command_codec.md R223 to R226. -/
def runArm (a : Arm) (op : Byte) (s : State) : State :=
  if s.payload.length < 2 + a.width then rejectDecode .truncated op (some op) s
  else respond (.decoded .ok (some op)) (writeSlots (fieldWrites a.fields s.payload 2) s)

/-- The decode has reached payload[1], which is `op`: no call is open, and payload[0] is the identifier. -/
def atOpcode (s : State) (op : Byte) : Bool :=
  decide (s.call = .none) && decide (s.payload[0]? = some s.cfg_ident) && decide (s.payload[1]? = some op)

/-- OP_UNKNOWN, 43_command_codec.md R222. -/
def execOpUnknown (op : Byte) (s : State) : Result :=
  .next (
    if atOpcode s op = true ∧ s.cfg_optable.arm op = none then rejectDecode .unknownOpcode op (some op) s
    else refuse s)

/-- OP_ARM, 43_command_codec.md R223. -/
def execOpArm (op : Byte) (s : State) : Result :=
  .next (
    if atOpcode s op = true then
      match s.cfg_optable.arm op with
      | some a => runArm a op s
      | none => refuse s
    else refuse s)

/-- OP_REQUEST_TELEMETRY, 43_command_codec.md R213: the default table's one arm. -/
def execOpRequestTelemetry (s : State) : Result :=
  .next (
    if atOpcode s telemetryOpcode = true ∧
        ((s.cfg_optable.arm telemetryOpcode).map Arm.isTelemetry).getD false = true then
      runArm telemetryArm telemetryOpcode s
    else refuse s)

/-- The row payload[1] selects runs. -/
def runOpRow (r : OpRow) (s : State) : Result :=
  match r with
  | .requestTelemetry => execOpRequestTelemetry s
  | .arm op => execOpArm op s
  | .unknown op => execOpUnknown op s

/-- The decode has reached payload[0], which is `b`: no call is open. -/
def atIdent (s : State) (b : Byte) : Bool :=
  decide (s.call = .none) && decide (s.payload[0]? = some b)

/-- IDENT_MISMATCH, 43_command_codec.md R221. -/
def execIdentMismatch (b : Byte) (s : State) : Result :=
  .next (
    if atIdent s b = true ∧ b ≠ s.cfg_ident then rejectDecode .identifierMismatch b none s
    else refuse s)

/-- IDENT_OK, 43_command_codec.md R221: the decode goes on to payload[1], if there is one (R224). -/
def execIdentOk (s : State) : Result :=
  if atIdent s s.cfg_ident = true then
    match s.payload[1]? with
    | some op => runOpRow (decodeOp s.cfg_optable op) s
    | none => .next (rejectDecode .truncated 0 none s)
  else .next (refuse s)

/-- The row payload[0] selects runs. -/
def runIdentRow (r : IdentRow) (s : State) : Result :=
  match r with
  | .identOk => execIdentOk s
  | .identMismatch b => execIdentMismatch b s

/-- `decode_core(p)` and its response, 43_command_codec.md R220, on the payload buffer. -/
def decodeCore (s : State) : Result :=
  match s.payload[0]? with
  | none => .next (rejectDecode .truncated 0 none s)
  | some b => runIdentRow (decodeIdent s.cfg_ident b) s

/-- DECODE, 43_command_codec.md R220. -/
def execDecode (p : List Byte) (s : State) : Result :=
  if s.configured = true ∧ s.call = .none then
    if Config.plMax < p.length then .next (respond (.decoded .payloadTooLong none) s)
    else decodeCore (loadPayload p s)
  else .next (refuse s)

/-- ENC_REQUEST, 43_command_codec.md R230. -/
def execEncRequest (op : Byte) (s : State) : Result :=
  .next (hostOp s (respond (.encoded .ok (some (requestPayload s op))) s))

/-- The bytes of ENC_FIELDS' values, in order. -/
def putFields (vs : List (Kind × FieldIn)) : List Byte := vs.flatMap (fun kv => putField kv.1 kv.2)

/-- ENC_FIELDS, 43_command_codec.md R232. -/
def execEncFields (op : Byte) (vs : List (Kind × FieldIn)) (s : State) : Result :=
  .next (hostOp s (
    if vs.all fieldInOk = true then
      let p := requestPayload s op ++ putFields vs
      if Config.plMax < p.length then respond (.encoded .payloadTooLong none) s
      else respond (.encoded .ok (some p)) s
    else refuse s))

end Sys2Proof.Machine
end

