-- ==== Sys2Proof/Machine/Receiver.lean ====
section
/-!
DEFINITION. The frame receiver, 41_frame_receiver.md: RX_RECEIVE, the rows a received byte selects, and POLL.
-/

namespace Sys2Proof.Machine

/-- RX_RECEIVE, 41_frame_receiver.md R150. -/
def execRxReceive (s : State) : Result :=
  .next (hostOp s (
    if s.transport_bound = false then respond (.received .noTransport 0 []) s else openCall .receive s))

/-- `end_call(OK, payload)`, 41_frame_receiver.md R151 and 44_session_ops.md R257: the payload goes to the payload buffer; a
Receive call answers with it, and a Request call decodes it in the same step. -/
def acceptFrame (p : List Byte) (s : State) : Result :=
  let t := loadPayload p (closeCall s)
  match s.call with
  | .receive => .next (respond (.received .ok p.length p) t)
  | .request => decodeCore t
  | .none => .next t

/-- `integrity_check()`, 41_frame_receiver.md R162. -/
def integrityCheck (s : State) : Result :=
  let p := rxSlice s 2 s.rx_len.toNat
  let computed := checksum s.cfg_crc_init p
  let received := BitVec.ofNat 16 (memRead (rxSlice s (s.rx_len.toNat + 2) 2) 0 2)
  if computed = received then acceptFrame p (emit (.frameAccepted s.rx_len) s)
  else .next (failCall .checksumMismatch (emit (.checksumMismatch computed received) s))

/-- After an append that does not complete the frame: 41_frame_receiver.md R159 and R160. -/
def keepOrOverflow (s : State) : State :=
  if s.rx_count = Config.rxBufCap then failCall .bufferOverflow (emit (.frameRejected .bufferOverflow 0) s) else s

/-- START_SHORT, 41_frame_receiver.md R155. -/
def execStartShort (s : State) : Result :=
  rxRow .startShort s (.next { rxStore 0 Config.startShort s with rx_count := 1, rx_state := .awaitShortLength })

/-- START_LONG, 41_frame_receiver.md R157. -/
def execStartLong (s : State) : Result :=
  rxRow .startLong s
    (.next (failCall .unsupportedLongFrame (emit (.frameRejected .unsupportedLongFrame Config.startLong) s)))

/-- START_OTHER, 41_frame_receiver.md R154. -/
def execStartOther (b : Byte) (s : State) : Result :=
  rxRow (.startOther b) s (.next (emit (.malformedStart b) s))

/-- LENGTH, 41_frame_receiver.md R156. -/
def execLength (b : Byte) (s : State) : Result :=
  rxRow (.length b) s (.next
    { rxStore 1 b s with
      rx_count := 2
      rx_len := b
      rx_expected := b.toNat + Config.shortOverhead
      rx_state := .accumulating })

/-- DATA, 41_frame_receiver.md R158 to R160. -/
def execData (b : Byte) (s : State) : Result :=
  rxRow (.data b) s (withRoom s (.next (keepOrOverflow (rxAppend b s))))

/-- TERMINATOR, 41_frame_receiver.md R158 and R162. -/
def execTerminator (s : State) : Result :=
  rxRow .terminator s (withRoom s (integrityCheck (rxAppend Config.terminator s)))

/-- NOT_TERMINATOR, 41_frame_receiver.md R158 to R160. -/
def execNotTerminator (b : Byte) (s : State) : Result :=
  rxRow (.notTerminator b) s (withRoom s (.next (keepOrOverflow (rxAppend b s))))

/-- The row a received byte selects runs. -/
def runRxRow (r : RxRow) (s : State) : Result :=
  match r with
  | .startShort => execStartShort s
  | .startLong => execStartLong s
  | .startOther b => execStartOther b s
  | .length b => execLength b s
  | .data b => execData b s
  | .terminator => execTerminator s
  | .notTerminator b => execNotTerminator b s

/-- The byte at the head of `rx_fifo` is taken, and runs the row it selects: 41_frame_receiver.md R152. -/
def takeByte (b : Byte) (rest : List Byte) (s : State) : Result :=
  match rxContext s with
  | some c => runRxRow (decodeRx c b) (setFifo rest s)
  | none => .fault .noTransition

/-- POLL at time `time`, 41_frame_receiver.md R152. It has an effect only while a call is open (10_state.md R42). -/
def execPoll (time : Nat) (s : State) : Result :=
  if s.call = .none then .next s
  else if s.rx_deadline ≤ time then .next (failCall .timeout s)
  else
    match s.rx_fifo with
    | [] => .next s
    | b :: rest => takeByte b rest s

/-- ARRIVE, 10_state.md R53: the environment appends a byte to the transport's receive queue, at any time. -/
def execArrive (b : Byte) (s : State) : Result := .next { s with rx_fifo := s.rx_fifo ++ [b] }

end Sys2Proof.Machine
end

