-- ==== Sys2Proof/Machine/Session.lean ====
section
/-!
DEFINITION. The session-facing operations, 44_session_ops.md.
-/

namespace Sys2Proof.Machine

/-- The fixed parameters are those this hardware admits (00_scope.md R17, R18; 60_exceptions.md R300; log 19). -/
def fixedParametersAdmitted : Bool :=
  !Config.longFrameSupport && decide (Config.payloadOrder = .identFirst)

/-- The `crc_init` values CONFIGURE admits, 10_state.md R36. -/
def crcInitAdmitted (c : Word16) : Bool :=
  decide (c = Config.crcInitDefault) || decide (c = Config.crcInitAlternative)

/-- The operands CONFIGURE takes: 44_session_ops.md R250, 43_command_codec.md R212. -/
def configurable (crcInit : Word16) (optable : OpTable) : Bool :=
  fixedParametersAdmitted && crcInitAdmitted crcInit && optable.isMap && optable.wellFormed

/-- The state right after CONFIGURE, 70_reset_and_hazards.md R321: every register and slot at its reset value. The receive
queue, the sticky marks (log 4) and the model's own fields stay. -/
def configuredState (timeout : Nat) (ident : Byte) (crcInit : Word16) (reqSentinel : Byte) (optable : OpTable)
    (s : State) : State :=
  { State.reset with
    cfg_timeout := timeout
    cfg_ident := ident
    cfg_crc_init := crcInit
    cfg_req_sentinel := reqSentinel
    cfg_optable := optable
    configured := true
    crc_acc := crcInit
    rx_fifo := s.rx_fifo
    refused := s.refused
    fault := s.fault
    now := s.now
    inputs := s.inputs
    responses := s.responses
    tx_answers := s.tx_answers
    tx_draws := s.tx_draws }

/-- CONFIGURE, 44_session_ops.md R250. -/
def execConfigure (timeout : Nat) (ident : Byte) (crcInit : Word16) (reqSentinel : Byte) (optable : OpTable)
    (s : State) : Result :=
  .next (
    if s.configured = false ∧ s.call = .none ∧ configurable crcInit optable = true then
      respond .done (configuredState timeout ident crcInit reqSentinel optable s)
    else refuse s)

/-- BIND_TRANSPORT, 44_session_ops.md R252. -/
def execBindTransport (s : State) : Result :=
  .next (hostOp s (
    if s.transport_bound = true then refuse s else respond .done { s with transport_bound := true }))

/-- BIND_DIAG, 44_session_ops.md R254. -/
def execBindDiag (s : State) : Result :=
  .next (hostOp s (
    if s.diag_bound = true then refuse s else respond .done { s with diag_bound := true }))

/-- REQUEST, 44_session_ops.md R256. -/
def execRequest (op : Byte) (s : State) : Result :=
  .next (hostOp s (
    if s.transport_bound = false then respond (.decoded .noTransport none) s
    else openCall .request (transmit (pack s.cfg_crc_init (requestPayload s op)) s)))

/-- READ_FIELD, 44_session_ops.md R258. -/
def execReadField (record : Record) (slot : Slot) (s : State) : Result :=
  .next (hostOp s (
    if slot.record = record then
      match readSlot s slot with
      | none => markFault s
      | some v => respond (.field v.kind v.raw (fieldValue v.kind v.raw)) s
    else refuse s))

end Sys2Proof.Machine
end

