-- ==== Sys2Proof/Machine/Dispatch.lean ====
section
/-!
DEFINITION. One arm per instruction: its meaning.
-/

namespace Sys2Proof.Machine

def exec (i : Instr) (s : State) : Host.Outcome State Fault Refusal :=
  match i with
  | .configure timeout ident crcInit reqSentinel optable => Sys2Proof.Machine.execConfigure timeout ident crcInit reqSentinel optable s
  | .bindTransport => Sys2Proof.Machine.execBindTransport s
  | .bindDiag => Sys2Proof.Machine.execBindDiag s
  | .crcClear => Sys2Proof.Machine.execCrcClear s
  | .crcFeed b => Sys2Proof.Machine.execCrcFeed b s
  | .crcRead => Sys2Proof.Machine.execCrcRead s
  | .crcCompute bytes => Sys2Proof.Machine.execCrcCompute bytes s
  | .txSend p => Sys2Proof.Machine.execTxSend p s
  | .rxReceive => Sys2Proof.Machine.execRxReceive s
  | .decode p => Sys2Proof.Machine.execDecode p s
  | .encRequest op => Sys2Proof.Machine.execEncRequest op s
  | .encFields op vs => Sys2Proof.Machine.execEncFields op vs s
  | .request op => Sys2Proof.Machine.execRequest op s
  | .readField record slot => Sys2Proof.Machine.execReadField record slot s
  | .poll time => Sys2Proof.Machine.execPoll time s
  | .arrive b => Sys2Proof.Machine.execArrive b s
  | .startShort => Sys2Proof.Machine.execStartShort s
  | .startLong => Sys2Proof.Machine.execStartLong s
  | .startOther b => Sys2Proof.Machine.execStartOther b s
  | .length b => Sys2Proof.Machine.execLength b s
  | .data b => Sys2Proof.Machine.execData b s
  | .terminator => Sys2Proof.Machine.execTerminator s
  | .notTerminator b => Sys2Proof.Machine.execNotTerminator b s
  | .identOk => Sys2Proof.Machine.execIdentOk s
  | .identMismatch b => Sys2Proof.Machine.execIdentMismatch b s
  | .opRequestTelemetry => Sys2Proof.Machine.execOpRequestTelemetry s
  | .opArm op => Sys2Proof.Machine.execOpArm op s
  | .opUnknown op => Sys2Proof.Machine.execOpUnknown op s

end Sys2Proof.Machine
end

