-- ==== Sys2Proof/Machine/Fetch.lean ====
section
/-!
DEFINITION. Where the next step comes from: the block fetches no instructions (10_state.md R31, 20_memory.md R84), so what runs
next is the oldest line of `inputs`, taken at the time the environment gives it (00_scope.md R21).
-/

namespace Sys2Proof.Machine

/-- What a step has to do. -/
inductive Pending where
  /-- Nothing is pending: the block does nothing (70_reset_and_hazards.md R322). -/
  | idle
  /-- The line is no input of the block: it is taken and leaves this state. -/
  | rejected (s : State)
  /-- The line's instruction runs in this state. -/
  | run (i : Instr) (s : State)

/-- The oldest line is taken. A line whose time lies before the present, or that names no operation, is an input the model gives
no meaning: it sets the `refused` mark (10_state.md R56, log 6, log 10). -/
def pending (s : State) : Pending :=
  match s.inputs with
  | [] => .idle
  | l :: rest =>
    if l.now < s.now then .rejected (refuse { s with inputs := rest })
    else
      match decodeLine l with
      | .ok i => .run i { s with inputs := rest, now := l.now }
      | .error _ => .rejected (refuse { s with inputs := rest, now := l.now })

/-- The machine about to take byte `b` in AwaitStart: a call is open and in time, `b` is the head of the receive queue, and a
POLL comes next. -/
def stageStartByte (b : Byte) (s : State) : State :=
  { s with
    configured := true
    transport_bound := true
    call := if s.call = .none then .receive else s.call
    rx_state := .awaitStart
    rx_count := 0
    rx_deadline := s.now + 1
    rx_fifo := b :: s.rx_fifo
    inputs := ⟨s.now, .poll, []⟩ :: s.inputs }

/-- The machine about to decode a payload whose opcode byte is `op`, under the default table, its field bytes zero: a DECODE
comes next. -/
def stageOpcodeByte (op : Byte) (s : State) : State :=
  { s with
    configured := true
    call := .none
    rx_state := .awaitStart
    cfg_optable := defaultTable
    inputs := ⟨s.now, .decode, [.bytes [s.cfg_ident, op, 0x00]]⟩ :: s.inputs }

/-- The machine about to meet the wire byte of a word of spec/opcode_table.json, in the context `tableContext` reads it in
(log 9). A word of another width is no word of the table and stages nothing. -/
def stageWord (nbits w : Nat) (s : State) : State :=
  if nbits = 8 ∧ w < 256 then
    if BitVec.ofNat 8 w = telemetryOpcode then stageOpcodeByte (BitVec.ofNat 8 w) s
    else stageStartByte (BitVec.ofNat 8 w) s
  else s

end Sys2Proof.Machine
end

