-- ==== Sys2Proof/Machine/Step.lean ====
section
/-!
DEFINITION. One step of the machine.
-/

namespace Sys2Proof.Machine

/-- One step: the oldest pending line's instruction runs; with none pending the block does nothing. -/
def step (s : State) : Host.Outcome State Fault Refusal :=
  match pending s with
  | .idle => .next s
  | .rejected t => .next t
  | .run i t => exec i t

/-- `s` with the wire byte of a word of spec/opcode_table.json where the next step meets it (log 9). -/
def State.withFetchWord (s : State) (nbits w : Nat) : State := stageWord nbits w s

end Sys2Proof.Machine
end

