-- ==== Sys2Proof/Safety.lean ====
section
/-!
DEFINITION. What claims about runs are stated in: which states are good, the invariant every step keeps, and runs of given
instructions.
-/

namespace Sys2Proof.Machine

/-- A run is good while neither sticky mark is set: a claim about a run that met a refused input or a fault is not a claim about
the block (60_exceptions.md R300, R301). Both marks are sticky, so the last state of a run tells. -/
abbrev State.good (s : State) : Prop := s.refused = false ∧ s.fault = false

/-- A state that may count as the end of a run: good, and with no call open (60_exceptions.md R302). -/
abbrev State.final (s : State) : Prop := s.good ∧ s.call = .none

/-- Where the receiver's registers stand in each of its states, while a call is open (41_frame_receiver.md R150 to R160). -/
def receiverInv (s : State) : Prop :=
  match s.rx_state with
  | .awaitStart => s.rx_count = 0
  | .awaitShortLength => s.rx_count = 1 ∧ Cells.read s.rx_buf 0 = some 0x02
  | .awaitLongLength => False
  | .accumulating =>
    2 ≤ s.rx_count ∧ s.rx_count < 260 ∧ s.rx_expected = s.rx_len.toNat + 5 ∧
      Cells.read s.rx_buf 0 = some 0x02 ∧ Cells.read s.rx_buf 1 = some s.rx_len ∧
      ∀ i, i < s.rx_count → (Cells.read s.rx_buf i).isSome = true

/-- The invariant of the machine. -/
structure Inv (s : State) : Prop where
  /-- `rx_buf` is in canonical form, and no index of 260 or above is written (20_memory.md R79). -/
  bufWf : Memory.wf s.rx_buf
  bufBound : ∀ c ∈ s.rx_buf, c.1 < 260
  /-- The record slots are in canonical form. -/
  slotsWf : Cells.wf s.slots
  /-- A written slot is named by an arm of the table, has the kind the arm gives it, and a raw word of that kind's width
  (10_state.md R50). -/
  slotsTyped : ∀ c ∈ s.slots, ∃ f ∈ s.cfg_optable.fields,
    f.slot.key = c.1 ∧ f.kind = c.2.kind ∧ c.2.raw.width = c.2.kind.width
  /-- The table is a finite map that passes the checks of 43_command_codec.md R212. -/
  tableOk : s.cfg_optable.isMap = true ∧ s.cfg_optable.wellFormed = true
  /-- `cfg_crc_init` is 0xFFFF or 0x0000 (10_state.md R36). -/
  crcInit : s.cfg_crc_init = 0xFFFF ∨ s.cfg_crc_init = 0x0000
  /-- The payload buffer holds a payload of at most `PL_MAX` = 255 bytes, within its capacity of 256 (00_scope.md R16). -/
  payloadFits : s.payload.length ≤ 255
  /-- `rx_count` and `rx_expected` lie in 0 to 260 (10_state.md R45, R46). -/
  countBound : s.rx_count ≤ 260
  expectedBound : s.rx_expected ≤ 260
  /-- Nothing is bound before CONFIGURE, and no call is open on an unbound transport (70_reset_and_hazards.md R323). -/
  boundConfigured : s.transport_bound = true → s.configured = true
  diagConfigured : s.diag_bound = true → s.configured = true
  callBound : s.call ≠ .none → s.transport_bound = true
  /-- Between calls the receiver is in AwaitStart (10_state.md R43). -/
  idleStart : s.call = .none → s.rx_state = .awaitStart
  /-- In a call its registers stand as its state says. -/
  receiver : s.call ≠ .none → receiverInv s

/-- The instructions run one after another, up to the first that stops. -/
def execAll : List Instr → State → Result
  | [], s => .next s
  | i :: is, s =>
    match exec i s with
    | .next t => execAll is t
    | .fault f => .fault f
    | .refused r => .refused r

end Sys2Proof.Machine
end

