-- ==== Sys2Proof/Certificates/Slice0/Obligations.lean ====
section
/-!
DEFINITION. The statements for the provers, and the few terms they are written in (`Sys2Proof.Claims`), which say what the rules
say without the model's shared operations.
-/

namespace Sys2Proof.Claims

open Sys2Proof.Machine

/-- A configured block with no call open: what 60_exceptions.md R291 asks first of a host operation. -/
abbrev Ready (s : State) : Prop := s.configured = true ∧ s.call = .none

/-- `diag_log` after `emit d`: 60_exceptions.md R295. -/
def logged (d : Diag) (s : State) : List Diag := if s.diag_bound = true then s.diag_log ++ [d] else s.diag_log

/-- A call ended by an outcome other than OK: 41_frame_receiver.md R151, 44_session_ops.md R257. -/
def callEnded (o : OutcomeCode) (s : State) : State :=
  { s with
    call := .none
    rx_state := .awaitStart
    responses := s.responses ++ [if s.call = .request then .decoded o none else .received o 0 []] }

/-- A payload rejected by the codec: 43_command_codec.md R220. -/
def payloadRejected (o : OutcomeCode) (detail : Byte) (op : Option Byte) (s : State) : State :=
  { s with
    diag_log := logged (.frameRejected o detail) s
    responses := s.responses ++ [.decoded o op] }

/-- An arm's fields committed from the payload buffer: 43_command_codec.md R220. -/
def armCommitted (a : Arm) (op : Byte) (s : State) : State :=
  { s with
    slots := (fieldWrites a.fields s.payload 2).foldl (fun m w => Cells.write m w.1.key w.2) s.slots
    responses := s.responses ++ [.decoded .ok (some op)] }

/-- What an arm does with the payload buffer: 43_command_codec.md R224, R225. -/
def armRun (a : Arm) (op : Byte) (s : State) : State :=
  if s.payload.length < 2 + (a.fields.map (fun f => f.kind.width)).sum then payloadRejected .truncated op (some op) s
  else armCommitted a op s

/-- `rx_buf[rx_count] <- b; rx_count <- rx_count + 1`: 41_frame_receiver.md R158. -/
def byteAppended (b : Byte) (s : State) : State :=
  { s with rx_buf := Cells.write s.rx_buf s.rx_count b, rx_count := s.rx_count + 1 }

/-- The payload of the frame in `rx_buf`, bytes 2 to 2 + L - 1: 20_memory.md R71. -/
def framePayload (s : State) : List Byte := (List.range s.rx_len.toNat).map (fun j => rxRead s (2 + j))

/-- The checksum of the frame in `rx_buf`, big-endian at 2 + L and 2 + L + 1: 20_memory.md R71. -/
def frameChecksum (s : State) : Word16 := rxRead s (2 + s.rx_len.toNat) ++ rxRead s (3 + s.rx_len.toNat)

/-- The frame in `rx_buf` accepted: its event, and the call closed (41_frame_receiver.md R151, R162). -/
def frameAccepted (s : State) : State :=
  { s with call := .none, rx_state := .awaitStart, diag_log := logged (.frameAccepted s.rx_len) s }

/-- The outcome of a decode, its tests in the order of 60_exceptions.md R293, and the opcode it answers with. -/
def decodeOutcome (s : State) (p : List Byte) : OutcomeCode × Option Byte :=
  match p with
  | [] => (.truncated, none)
  | [b] => if b ≠ s.cfg_ident then (.identifierMismatch, none) else (.truncated, none)
  | b :: op :: _ =>
    if b ≠ s.cfg_ident then (.identifierMismatch, none)
    else
      match s.cfg_optable.arm op with
      | none => (.unknownOpcode, some op)
      | some a =>
        if p.length < 2 + (a.fields.map (fun f => f.kind.width)).sum then (.truncated, some op) else (.ok, some op)

/-- Bit `k` of byte `i` flipped. -/
def flipBit (p : List Byte) (i k : Nat) : List Byte := p.modify i (fun b => b ^^^ BitVec.twoPow 8 k)

/-- The short frame with these payload bytes and this checksum: 30_encoding.md R90. -/
def frameBytes (p : List Byte) (c : Word16) : List Byte :=
  [0x02, BitVec.ofNat 8 p.length] ++ p ++ [c.extractLsb' 8 8, c.extractLsb' 0 8, 0x03]

/-- Equal but for `diag_bound` and `diag_log`. -/
def SameButDiagnostics (s t : State) : Prop :=
  { s with diag_bound := false, diag_log := [] } = { t with diag_bound := false, diag_log := [] }

/-- Both runs stop alike, or both answer states that differ in diagnostics only. -/
def SameOutcome (r q : Result) : Prop :=
  match r, q with
  | .next s, .next t => SameButDiagnostics s t
  | .fault f, .fault g => f = g
  | .refused f, .refused g => f = g
  | _, _ => False

/-- The one index of `rx_buf` the receiver writes where it stands: 10_state.md R44, 41_frame_receiver.md R155 to R158. -/
def rxWriteIndex (s : State) : Nat :=
  match s.rx_state with
  | .awaitStart => 0
  | .awaitShortLength => 1
  | .awaitLongLength => s.rx_count
  | .accumulating => s.rx_count

end Sys2Proof.Claims

open Sys2Proof Sys2Proof.Machine Sys2Proof.Claims

/-! ## Reset and configuration -/

/-- The state a run starts from satisfies the invariant. That state is the block before CONFIGURE, by the model's choice (log 1); so
are the table and the initial value it holds there (log 2), and its empty payload buffer (log 14). -/
def Obligations.ResetStateSatisfiesInvariant : Prop := Inv State.reset

/-- CONFIGURE on an unconfigured block with admitted operands gives every register the value of 70_reset_and_hazards.md R321; with
an operand that is not admitted, or on a configured block, it is refused (44_session_ops.md R250). That the sticky marks and the
payload buffer are as written here is the model's choice (log 4, log 14). -/
def Obligations.ConfigureSetsEveryRegister : Prop :=
  ∀ (timeout : Nat) (ident : Byte) (crcInit : Word16) (sentinel : Byte) (table : OpTable) (s : State),
    (s.configured = false → s.call = .none → (crcInit = 0xFFFF ∨ crcInit = 0x0000) →
      table.isMap = true → table.wellFormed = true →
      exec (.configure timeout ident crcInit sentinel table) s = .next
        { cfg_timeout := timeout, cfg_ident := ident, cfg_crc_init := crcInit, cfg_req_sentinel := sentinel,
          cfg_optable := table, configured := true, transport_bound := false, diag_bound := false, crc_acc := crcInit,
          call := .none, rx_state := .awaitStart, rx_buf := [], rx_count := 0, rx_expected := 0, rx_len := 0,
          rx_deadline := 0, payload := [], slots := [], rx_fifo := s.rx_fifo, tx_log := [], diag_log := [],
          refused := s.refused, fault := s.fault, now := s.now, inputs := s.inputs,
          responses := s.responses ++ [.done], tx_answers := s.tx_answers, tx_draws := s.tx_draws }) ∧
    (s.configured = true ∨ (crcInit ≠ 0xFFFF ∧ crcInit ≠ 0x0000) ∨ table.wellFormed = false →
      exec (.configure timeout ident crcInit sentinel table) s = .next { s with refused := true })

/-- A table is well-formed exactly when the five checks of 43_command_codec.md R212 hold. -/
def Obligations.TableWellFormedIffFiveChecks : Prop :=
  ∀ t : OpTable, t.wellFormed = true ↔
    (∀ row ∈ t,
      (∀ f ∈ row.2.fields, f.slot.record = row.2.record) ∧
      (row.2.fields.map Field.slot).Nodup ∧
      (∀ f ∈ row.2.fields, ∀ d, f.kind = .fix16 d ∨ f.kind = .fix32 d → 1 ≤ d) ∧
      2 + (row.2.fields.map (fun f => f.kind.width)).sum ≤ 255) ∧
    (∀ r ∈ t, ∀ q ∈ t, ∀ f ∈ r.2.fields, ∀ g ∈ q.2.fields, f.slot = g.slot → f.kind = g.kind)

/-- Any host operation while a call is open is refused; so is any but CONFIGURE before CONFIGURE. That this covers CONFIGURE with a
call open on an unconfigured block is the model's reading (log 26). -/
def Obligations.HostOperationOutOfTurnIsRefused : Prop :=
  ∀ (i : Instr) (s : State), i.mnemonic.format = .hostOp →
    (s.call ≠ .none ∨ (s.configured = false ∧ i.mnemonic ≠ .configure)) →
    exec i s = .next { s with refused := true }

/-! ## Checksum -/

/-- CRC_CLEAR. -/
def Obligations.CrcClearLoadsInitialValue : Prop :=
  ∀ s : State,
    (Ready s → exec .crcClear s = .next { s with crc_acc := s.cfg_crc_init, responses := s.responses ++ [.done] }) ∧
    (s.call ≠ .none → exec .crcClear s = .next { s with refused := true })

/-- CRC_FEED, with the rule's corner cases. -/
def Obligations.CrcFeedStepsAccumulator : Prop :=
  (∀ (b : Byte) (s : State),
    (Ready s → exec (.crcFeed b) s =
      .next { s with crc_acc := crcStep s.crc_acc b, responses := s.responses ++ [.done] }) ∧
    (s.call ≠ .none → exec (.crcFeed b) s = .next { s with refused := true })) ∧
  crcStep 0x0000 0x00 = 0x0000 ∧ crcStep 0xFFFF 0x00 = 0xE1F0 ∧ crcStep 0xFFFF 0x66 = 0xED90

/-- CRC_READ, with the rule's example. -/
def Obligations.CrcReadAnswersAccumulator : Prop :=
  (∀ s : State,
    (Ready s → exec .crcRead s = .next { s with responses := s.responses ++ [.crc s.crc_acc] }) ∧
    (s.call ≠ .none → exec .crcRead s = .next { s with refused := true })) ∧
  crcStep (crcStep (crcStep 0xFFFF 0x66) 0x01) 0x00 = 0xD666

/-- CRC_COMPUTE, with the rule's corner case and examples. -/
def Obligations.CrcComputeAnswersChecksum : Prop :=
  (∀ (bytes : List Byte) (s : State),
    (Ready s → exec (.crcCompute bytes) s =
      .next { s with responses := s.responses ++ [.crc (checksum s.cfg_crc_init bytes)] }) ∧
    (s.call ≠ .none → exec (.crcCompute bytes) s = .next { s with refused := true })) ∧
  (∀ c : Word16, checksum c [] = c) ∧
  checksum 0xFFFF [0x66, 0x01, 0x00] = 0xD666 ∧ checksum 0x0000 [0x66, 0x01, 0x00] = 0x1AFA

/-- The table-driven form of `crc_step`, and the first sixteen entries of its table. -/
def Obligations.CrcStepEqualsTableForm : Prop :=
  (∀ (c : Word16) (b : Byte), crcStep c b = crcStep 0x0000 (c.extractLsb' 8 8 ^^^ b) ^^^ (c <<< 8)) ∧
  (List.range 16).map (fun i => crcStep 0x0000 (BitVec.ofNat 8 i)) =
    [0x0000, 0x1021, 0x2042, 0x3063, 0x4084, 0x50A5, 0x60C6, 0x70E7,
     0x8108, 0x9129, 0xA14A, 0xB16B, 0xC18C, 0xD1AD, 0xE1CE, 0xF1EF]

/-- CRC_CLEAR, then CRC_FEED of each byte, then CRC_READ answers the checksum of the whole. -/
def Obligations.CrcFedByteByByteEqualsWhole : Prop :=
  ∀ (bytes : List Byte) (s : State), Ready s →
    ∃ t, execAll (.crcClear :: bytes.map .crcFeed) s = .next t ∧ t.crc_acc = checksum s.cfg_crc_init bytes ∧
      exec .crcRead t = .next { t with responses := t.responses ++ [.crc (checksum s.cfg_crc_init bytes)] }

/-- Every single-bit flip changes the checksum. -/
def Obligations.SingleBitFlipChangesChecksum : Prop :=
  ∀ (init : Word16) (p : List Byte) (i k : Nat), i < p.length → k < 8 →
    checksum init (flipBit p i k) ≠ checksum init p

/-- The check values, and the checksum of the empty sequence in a frame. -/
def Obligations.CrcCheckValues : Prop :=
  checksum 0xFFFF [0x31, 0x32, 0x33, 0x34, 0x35, 0x36, 0x37, 0x38, 0x39] = 0x29B1 ∧
  checksum 0x0000 [0x31, 0x32, 0x33, 0x34, 0x35, 0x36, 0x37, 0x38, 0x39] = 0x31C3 ∧
  checksum 0xFFFF [] = 0xFFFF ∧ checksum 0x0000 [] = 0x0000 ∧
  pack 0xFFFF [] = [0x02, 0x00, 0xFF, 0xFF, 0x03] ∧ pack 0x0000 [] = [0x02, 0x00, 0x00, 0x00, 0x03]

/-! ## Transmitter -/

/-- The frame of a payload, byte by byte, and its size. -/
def Obligations.PackBuildsShortFrame : Prop :=
  ∀ (init : Word16) (p : List Byte), p.length ≤ 255 →
    pack init p = frameBytes p (checksum init p) ∧ (pack init p).length = p.length + 5 ∧ (pack init p).length ≤ 260

/-- TX_SEND: NO_TRANSPORT, PAYLOAD_TOO_LONG, or the k bytes the transport takes of the whole frame. Where `tx_answers` holds an
answer, k is that answer, which is the model's choice (log 11). -/
def Obligations.TxSendOffersWholeFrame : Prop :=
  ∀ (p : List Byte) (s : State),
    (Ready s → s.transport_bound = false →
      exec (.txSend p) s = .next { s with responses := s.responses ++ [.sent .noTransport 0] }) ∧
    (Ready s → s.transport_bound = true → 255 < p.length →
      exec (.txSend p) s = .next { s with responses := s.responses ++ [.sent .payloadTooLong 0] }) ∧
    (Ready s → s.transport_bound = true → p.length ≤ 255 →
      ∃ k, k ≤ p.length + 5 ∧ (∀ a as, s.tx_answers = a :: as → k = min a (p.length + 5)) ∧
        exec (.txSend p) s = .next
          { s with
            tx_log := s.tx_log ++ (frameBytes p (checksum s.cfg_crc_init p)).take k
            tx_answers := s.tx_answers.tail
            tx_draws := s.tx_draws + 1
            responses := s.responses ++ [.sent .ok k] }) ∧
    (s.call ≠ .none → exec (.txSend p) s = .next { s with refused := true })

/-! ## Receiver -/

/-- RX_RECEIVE opens a call, or answers NO_TRANSPORT. -/
def Obligations.RxReceiveOpensCall : Prop :=
  ∀ s : State,
    (Ready s → s.transport_bound = false →
      exec .rxReceive s = .next { s with responses := s.responses ++ [.received .noTransport 0 []] }) ∧
    (Ready s → s.transport_bound = true →
      exec .rxReceive s = .next
        { s with
          call := .receive
          rx_state := .awaitStart
          rx_count := 0
          rx_expected := 0
          rx_len := 0
          rx_deadline := s.now + s.cfg_timeout }) ∧
    (s.call ≠ .none → exec .rxReceive s = .next { s with refused := true })

/-- POLL: the deadline first, then at most one byte, whose row runs; in AwaitLongLength, which has no transitions, a byte stops
the machine (log 17). That a POLL with no call open changes nothing and sets no mark is the model's reading (log 20). -/
def Obligations.PollTestsDeadlineThenTakesOneByte : Prop :=
  ∀ (time : Nat) (s : State),
    (s.call = .none → exec (.poll time) s = .next s) ∧
    (s.call ≠ .none → s.rx_deadline ≤ time → exec (.poll time) s = .next (callEnded .timeout s)) ∧
    (s.call ≠ .none → time < s.rx_deadline → s.rx_fifo = [] → exec (.poll time) s = .next s) ∧
    (∀ b rest, s.call ≠ .none → time < s.rx_deadline → s.rx_fifo = b :: rest →
      (s.rx_state = .awaitStart →
        exec (.poll time) s = exec (decodeWire (.rx .start) b) { s with rx_fifo := rest }) ∧
      (s.rx_state = .awaitShortLength →
        exec (.poll time) s = exec (decodeWire (.rx .length) b) { s with rx_fifo := rest }) ∧
      (s.rx_state = .accumulating → s.rx_count + 1 ≠ s.rx_expected →
        exec (.poll time) s = exec (decodeWire (.rx .middle) b) { s with rx_fifo := rest }) ∧
      (s.rx_state = .accumulating → s.rx_count + 1 = s.rx_expected →
        exec (.poll time) s = exec (decodeWire (.rx .last) b) { s with rx_fifo := rest }) ∧
      (s.rx_state = .awaitLongLength → exec (.poll time) s = .fault .noTransition))

/-- POLL in time with a byte waiting: the byte is taken, and the receiver moves on. -/
def Obligations.PollTakesByteAndMovesOn : Prop :=
  ∀ (time : Nat) (b : Byte) (rest : List Byte) (s : State), s.call ≠ .none → time < s.rx_deadline → s.rx_fifo = b :: rest →
    (s.rx_state = .awaitStart → b = 0x02 →
      exec (.poll time) s = .next
        { s with
          rx_fifo := rest
          rx_buf := Cells.write s.rx_buf 0 0x02
          rx_count := 1
          rx_state := .awaitShortLength }) ∧
    (s.rx_state = .awaitStart → b ≠ 0x02 → b ≠ 0x03 →
      exec (.poll time) s = .next { s with rx_fifo := rest, diag_log := logged (.malformedStart b) s }) ∧
    (s.rx_state = .awaitShortLength →
      exec (.poll time) s = .next
        { s with
          rx_fifo := rest
          rx_buf := Cells.write s.rx_buf 1 b
          rx_count := 2
          rx_len := b
          rx_expected := b.toNat + 5
          rx_state := .accumulating }) ∧
    (s.rx_state = .accumulating → s.rx_count + 1 < 260 → s.rx_count + 1 ≠ s.rx_expected ∨ b ≠ 0x03 →
      exec (.poll time) s = .next { byteAppended b s with rx_fifo := rest })

/-- The three rows of AwaitStart. -/
def Obligations.StartByteRows : Prop :=
  ∀ s : State, s.call ≠ .none → s.rx_state = .awaitStart →
    exec .startShort s = .next
      { s with rx_buf := Cells.write s.rx_buf 0 0x02, rx_count := 1, rx_state := .awaitShortLength } ∧
    exec .startLong s = .next (callEnded .unsupportedLongFrame
      { s with diag_log := logged (.frameRejected .unsupportedLongFrame 0x03) s }) ∧
    (∀ b : Byte, b ≠ 0x02 → b ≠ 0x03 → exec (.startOther b) s = .next { s with diag_log := logged (.malformedStart b) s })

/-- LENGTH: any byte, and the frame size it predicts. -/
def Obligations.LengthByteRow : Prop :=
  ∀ (b : Byte) (s : State), s.call ≠ .none → s.rx_state = .awaitShortLength →
    exec (.length b) s = .next
      { s with
        rx_buf := Cells.write s.rx_buf 1 b
        rx_count := 2
        rx_len := b
        rx_expected := b.toNat + 5
        rx_state := .accumulating }

/-- DATA and NOT_TERMINATOR: the byte is appended, no completion; BUFFER_OVERFLOW at 260 bytes. With no room in `rx_buf` the
machine stops (log 18). -/
def Obligations.AccumulatedByteRows : Prop :=
  ∀ (b : Byte) (s : State), s.call ≠ .none → s.rx_state = .accumulating →
    (s.rx_count < 260 → s.rx_count + 1 ≠ s.rx_expected →
      exec (.data b) s = .next
        (if s.rx_count + 1 = 260 then
          callEnded .bufferOverflow { byteAppended b s with diag_log := logged (.frameRejected .bufferOverflow 0) s }
        else byteAppended b s)) ∧
    (s.rx_count < 260 → s.rx_count + 1 = s.rx_expected → b ≠ 0x03 →
      exec (.notTerminator b) s = .next
        (if s.rx_count + 1 = 260 then
          callEnded .bufferOverflow { byteAppended b s with diag_log := logged (.frameRejected .bufferOverflow 0) s }
        else byteAppended b s)) ∧
    (260 ≤ s.rx_count → s.rx_count + 1 ≠ s.rx_expected → exec (.data b) s = .fault .rxBufIndex)

/-- TERMINATOR: the integrity check, and the end of a Receive call or of a mismatched one. That the payload stays in the payload
buffer is the model's choice (log 14). -/
def Obligations.TerminatorRunsIntegrityCheck : Prop :=
  ∀ s a : State, s.call ≠ .none → s.rx_state = .accumulating → s.rx_count + 1 = s.rx_expected → s.rx_count < 260 →
    a = byteAppended 0x03 s →
    (checksum s.cfg_crc_init (framePayload a) ≠ frameChecksum a →
      exec .terminator s = .next (callEnded .checksumMismatch
        { a with
          diag_log := logged (.checksumMismatch (checksum s.cfg_crc_init (framePayload a)) (frameChecksum a)) a })) ∧
    (checksum s.cfg_crc_init (framePayload a) = frameChecksum a → s.call = .receive →
      exec .terminator s = .next
        { frameAccepted a with
          payload := framePayload a
          responses := s.responses ++ [.received .ok s.rx_len.toNat (framePayload a)] })

/-- TERMINATOR in a Request call: an accepted frame's payload is decoded in the same step, as DECODE would. -/
def Obligations.AcceptedFrameInRequestIsDecoded : Prop :=
  ∀ s a : State, s.configured = true → s.call = .request → s.rx_state = .accumulating →
    s.rx_count + 1 = s.rx_expected → s.rx_count < 260 → a = byteAppended 0x03 s →
    checksum s.cfg_crc_init (framePayload a) = frameChecksum a →
    (∃ t, exec .terminator s = .next t ∧ t.call = .none ∧ t.rx_state = .awaitStart ∧
      t.responses = s.responses ++
        [.decoded (decodeOutcome s (framePayload a)).1 (decodeOutcome s (framePayload a)).2]) ∧
    exec .terminator s = exec (.decode (framePayload a)) (frameAccepted a)

/-- `rx_buf` is written at one index only, and by the receiver's storing rows only. -/
def Obligations.RxBufWrittenOnlyByReceiver : Prop :=
  ∀ (i : Instr) (s t : State), exec i s = .next t → i.mnemonic ≠ .configure →
    (∀ a, a ≠ rxWriteIndex s → rxRead t a = rxRead s a) ∧
    (i.mnemonic ∉ [Mnemonic.poll, .startShort, .length, .data, .terminator, .notTerminator] →
      ∀ a, rxRead t a = rxRead s a)

/-- A packed payload, arriving whole and polled in time, is received as it was sent. -/
def Obligations.PackedFrameRoundTrips : Prop :=
  ∀ (p : List Byte) (s : State) (times : List Nat), Ready s → s.transport_bound = true → s.rx_fifo = [] →
    p.length ≤ 255 → times.length = p.length + 5 → (∀ τ ∈ times, τ < s.now + s.cfg_timeout) →
    ∃ t, execAll (.rxReceive :: (pack s.cfg_crc_init p).map .arrive ++ times.map .poll) s = .next t ∧
      t.responses = s.responses ++ [.received .ok p.length p] ∧ t.call = .none ∧ t.rx_fifo = []

/-- A packed payload with one bit of its payload region flipped ends the call with CHECKSUM_MISMATCH. -/
def Obligations.CorruptedPayloadIsRejected : Prop :=
  ∀ (p : List Byte) (i k : Nat) (s : State) (times : List Nat), Ready s → s.transport_bound = true → s.rx_fifo = [] →
    p.length ≤ 255 → i < p.length → k < 8 → times.length = p.length + 5 →
    (∀ τ ∈ times, τ < s.now + s.cfg_timeout) →
    ∃ t, execAll (.rxReceive ::
        (frameBytes (flipBit p i k) (checksum s.cfg_crc_init p)).map .arrive ++ times.map .poll) s = .next t ∧
      t.responses = s.responses ++ [.received .checksumMismatch 0 []] ∧ t.call = .none ∧ t.slots = s.slots

/-! ## Codec -/

/-- DECODE: too long a payload; an empty one; else the row of its first byte runs. That the payload stays in the payload buffer is
the model's choice (log 14). -/
def Obligations.DecodeRunsIdentifierRow : Prop :=
  ∀ (p : List Byte) (s : State), Ready s →
    (255 < p.length →
      exec (.decode p) s = .next { s with responses := s.responses ++ [.decoded .payloadTooLong none] }) ∧
    (p = [] → exec (.decode p) s = .next (payloadRejected .truncated 0 none { s with payload := [] })) ∧
    (∀ b rest, p = b :: rest → p.length ≤ 255 →
      exec (.decode p) s = exec (decodeWire (.ident s.cfg_ident) b) { s with payload := p })

/-- IDENT_MISMATCH: IDENTIFIER_MISMATCH whatever follows, no slot changed; and DECODE of such a payload, which stays in the payload
buffer by the model's choice (log 14). -/
def Obligations.WrongIdentifierIsRejected : Prop :=
  ∀ (b : Byte) (rest : List Byte) (s : State), b ≠ s.cfg_ident →
    (s.call = .none → s.payload = b :: rest →
      exec (.identMismatch b) s = .next (payloadRejected .identifierMismatch b none s)) ∧
    (Ready s → (b :: rest).length ≤ 255 →
      exec (.decode (b :: rest)) s =
        .next (payloadRejected .identifierMismatch b none { s with payload := b :: rest }))

/-- IDENT_OK: the decode goes on to the opcode byte. -/
def Obligations.AcceptedIdentifierGoesOnToOpcode : Prop :=
  ∀ s : State, s.call = .none →
    (s.payload = [s.cfg_ident] → exec .identOk s = .next (payloadRejected .truncated 0 none s)) ∧
    (∀ op rest, s.payload = s.cfg_ident :: op :: rest →
      (s.cfg_optable.arm op = none →
        exec .identOk s = .next (payloadRejected .unknownOpcode op (some op) s)) ∧
      (∀ a, s.cfg_optable.arm op = some a → exec .identOk s = .next (armRun a op s)))

/-- OP_UNKNOWN: UNKNOWN_OPCODE with the opcode, no slot changed. -/
def Obligations.UnknownOpcodeIsRejected : Prop :=
  ∀ (op : Byte) (rest : List Byte) (s : State), s.call = .none → s.payload = s.cfg_ident :: op :: rest →
    s.cfg_optable.arm op = none →
    exec (.opUnknown op) s = .next (payloadRejected .unknownOpcode op (some op) s)

/-- OP_ARM: TRUNCATED, or the arm's fields committed. -/
def Obligations.OpcodeArmTakesItsFields : Prop :=
  ∀ (op : Byte) (rest : List Byte) (a : Arm) (s : State), s.call = .none → s.payload = s.cfg_ident :: op :: rest →
    s.cfg_optable.arm op = some a → exec (.opArm op) s = .next (armRun a op s)

/-- The default table, and OP_REQUEST_TELEMETRY under every table whose 0x01 arm has the default arm's record and fields: that the
row stands for those arms too is the model's choice (log 25). -/
def Obligations.DefaultTableDecodesSwitchState : Prop :=
  (defaultTable.arm 0x01 = some ⟨"RequestTelemetry", .telemetry, [⟨.u8, .switchState⟩]⟩ ∧
    ∀ op : Byte, op ≠ 0x01 → defaultTable.arm op = none) ∧
  ∀ (s : State) (a : Arm), s.call = .none → s.cfg_optable.arm 0x01 = some a →
    a.record = .telemetry → a.fields = [⟨.u8, .switchState⟩] →
    (s.payload = [s.cfg_ident, 0x01] →
      exec .opRequestTelemetry s = .next (payloadRejected .truncated 0x01 (some 0x01) s)) ∧
    (∀ v rest, s.payload = s.cfg_ident :: 0x01 :: v :: rest →
      exec .opRequestTelemetry s = .next
        { s with
          slots := Cells.write s.slots Slot.switchState.key ⟨.u8, .w8 v⟩
          responses := s.responses ++ [.decoded .ok (some 0x01)] })

/-- A decode's tests come in the order of 60_exceptions.md R293. -/
def Obligations.DecodeTestsInOrder : Prop :=
  ∀ (p : List Byte) (s : State), Ready s → p.length ≤ 255 →
    ∃ t, exec (.decode p) s = .next t ∧
      t.responses = s.responses ++ [.decoded (decodeOutcome s p).1 (decodeOutcome s p).2]

/-- A decode writes every slot of the arm, each field from its own offset, or none; other slots keep their values. -/
def Obligations.DecodeCommitsAllFieldsOrNone : Prop :=
  ∀ (p : List Byte) (s : State), Ready s → s.cfg_optable.wellFormed = true →
    ∃ t, exec (.decode p) s = .next t ∧
      (255 < p.length ∨ (decodeOutcome s p).1 ≠ .ok → t.slots = s.slots) ∧
      (∀ op rest a, p.length ≤ 255 → p = s.cfg_ident :: op :: rest → s.cfg_optable.arm op = some a →
        (decodeOutcome s p).1 = .ok →
        (∀ j f, a.fields[j]? = some f →
          readSlot t f.slot = some ⟨f.kind, getField f.kind p (2 + ((a.fields.take j).map (fun g => g.kind.width)).sum)⟩) ∧
        (∀ sl, sl ∉ a.fields.map Field.slot → readSlot t sl = readSlot s sl))

/-- Decoding the same payload twice leaves the slots as decoding it once. -/
def Obligations.DecodeIsIdempotent : Prop :=
  ∀ (p : List Byte) (s t u : State), Ready s → exec (.decode p) s = .next t → exec (.decode p) t = .next u →
    ∀ sl, readSlot u sl = readSlot t sl

/-- Bytes after an arm's last field are ignored. -/
def Obligations.TrailingBytesAreIgnored : Prop :=
  ∀ (op : Byte) (body extra : List Byte) (a : Arm) (s : State), Ready s → s.cfg_optable.arm op = some a →
    (body.length = (a.fields.map (fun f => f.kind.width)).sum) → 2 + (body ++ extra).length ≤ 255 →
    ∃ t u, exec (.decode (s.cfg_ident :: op :: body)) s = .next t ∧
      exec (.decode (s.cfg_ident :: op :: (body ++ extra))) s = .next u ∧
      u.slots = t.slots ∧ u.responses = t.responses ∧ u.diag_log = t.diag_log

/-- ENC_REQUEST encodes every opcode, with an arm or without. -/
def Obligations.EncRequestBuildsThreeBytes : Prop :=
  ∀ (op : Byte) (s : State),
    (Ready s → exec (.encRequest op) s = .next
      { s with responses := s.responses ++ [.encoded .ok (some [s.cfg_req_sentinel, s.cfg_ident, op])] }) ∧
    (s.call ≠ .none → exec (.encRequest op) s = .next { s with refused := true })

/-- ENC_FIELDS appends each field's bytes, up to 255 bytes in all; with no fields it is ENC_REQUEST. -/
def Obligations.EncFieldsAppendsFields : Prop :=
  ∀ (op : Byte) (vs : List (Kind × FieldIn)) (s : State),
    (Ready s → vs.all fieldInOk = true →
      exec (.encFields op vs) s = .next
        { s with responses := s.responses ++
            [if 255 < 3 + (vs.map (fun kv => (putField kv.1 kv.2).length)).sum then .encoded .payloadTooLong none
              else .encoded .ok (some ([s.cfg_req_sentinel, s.cfg_ident, op] ++
                vs.flatMap (fun kv => putField kv.1 kv.2)))] }) ∧
    (s.call ≠ .none → exec (.encFields op vs) s = .next { s with refused := true }) ∧
    exec (.encFields op []) s = exec (.encRequest op) s

/-- `get_field` inverts `put_field`. -/
def Obligations.GetFieldInvertsPutField : Prop :=
  (∀ (k : Kind) (r : Raw), k ≠ .bool8 → r.width = k.width → getField k (putField k (.raw r)) 0 = r) ∧
  (∀ b : Bool, (getField .bool8 (putField .bool8 (.bool b)) 0).toNat ≠ 0 ↔ b = true)

/-- The bytes of a field, most significant first, in both directions. -/
def Obligations.FieldBytesAreBigEndian : Prop :=
  (∀ (k : Kind) (b0 b1 b2 b3 : Byte) (pre post : List Byte),
    (k.width = 1 → getField k (pre ++ b0 :: post) pre.length = .w8 b0) ∧
    (k.width = 2 → getField k (pre ++ b0 :: b1 :: post) pre.length = .w16 (b0 ++ b1)) ∧
    (k.width = 4 → getField k (pre ++ b0 :: b1 :: b2 :: b3 :: post) pre.length = .w32 (b0 ++ b1 ++ b2 ++ b3))) ∧
  (∀ (k : Kind) (b0 b1 b2 b3 : Byte),
    (k.width = 1 → putField k (.raw (.w8 b0)) = [b0]) ∧
    (k.width = 2 → putField k (.raw (.w16 (b0 ++ b1))) = [b0, b1]) ∧
    (k.width = 4 → putField k (.raw (.w32 (b0 ++ b1 ++ b2 ++ b3))) = [b0, b1, b2, b3])) ∧
  putField .bool8 (.bool true) = [0x01] ∧ putField .bool8 (.bool false) = [0x00]

/-- The value of a raw word, by its kind: signed kinds from the top bit, fixed-point kinds over their divisor, and an auto-scaled
word by the free function `F32AUTO_DECODE`, of which no value is used. That its values are rationals is the model's reading
(log 12). -/
def Obligations.FieldValuesByKind : Prop :=
  ∀ (k : Kind) (r : Raw) (signed : Int), r.width = k.width →
    signed = (if r.toNat < 2 ^ (8 * r.width - 1) then (r.toNat : Int) else (r.toNat : Int) - 2 ^ (8 * r.width)) →
    ((k = .u8 ∨ k = .u16 ∨ k = .u32) → fieldValue k r = .int r.toNat) ∧
    ((k = .i8 ∨ k = .i16 ∨ k = .i32) → fieldValue k r = .int signed) ∧
    (k = .bool8 → fieldValue k r = .bool (decide (r.toNat ≠ 0))) ∧
    (∀ d : Nat, 1 ≤ d → (k = .fix16 d ∨ k = .fix32 d) → fieldValue k r = .rat ((signed : Rat) / (d : Rat))) ∧
    (∀ v : Word32, k = .f32auto → r = .w32 v → fieldValue k r = .rat (Config.f32AutoDecode v))

/-! ## Session -/

/-- BIND_TRANSPORT and BIND_DIAG, each at most once. -/
def Obligations.BindOperationsOnceEach : Prop :=
  ∀ s : State,
    (Ready s → s.transport_bound = false →
      exec .bindTransport s = .next { s with transport_bound := true, responses := s.responses ++ [.done] }) ∧
    (s.call ≠ .none ∨ s.transport_bound = true → exec .bindTransport s = .next { s with refused := true }) ∧
    (Ready s → s.diag_bound = false →
      exec .bindDiag s = .next { s with diag_bound := true, responses := s.responses ++ [.done] }) ∧
    (s.call ≠ .none ∨ s.diag_bound = true → exec .bindDiag s = .next { s with refused := true })

/-- REQUEST sends the 8-byte request frame, as far as the transport takes it, and opens a call. Where `tx_answers` holds an answer,
k is that answer, which is the model's choice (log 11). -/
def Obligations.RequestSendsFrameAndOpensCall : Prop :=
  ∀ (op : Byte) (s : State),
    (Ready s → s.transport_bound = false →
      exec (.request op) s = .next { s with responses := s.responses ++ [.decoded .noTransport none] }) ∧
    (Ready s → s.transport_bound = true →
      ∃ k, k ≤ 8 ∧ (∀ a as, s.tx_answers = a :: as → k = min a 8) ∧
        exec (.request op) s = .next
          { s with
            tx_log := s.tx_log ++ (frameBytes [s.cfg_req_sentinel, s.cfg_ident, op]
              (checksum s.cfg_crc_init [s.cfg_req_sentinel, s.cfg_ident, op])).take k
            tx_answers := s.tx_answers.tail
            tx_draws := s.tx_draws + 1
            call := .request
            rx_state := .awaitStart
            rx_count := 0
            rx_expected := 0
            rx_len := 0
            rx_deadline := s.now + s.cfg_timeout }) ∧
    (s.call ≠ .none → exec (.request op) s = .next { s with refused := true })

/-- READ_FIELD answers a written slot's kind, raw word and value; an unwritten slot sets the `fault` mark. That the machine goes on
after the mark is the model's reading (log 5). -/
def Obligations.ReadFieldAnswersOrMarksFault : Prop :=
  ∀ (sl : Slot) (s : State),
    (∀ k r, Ready s → readSlot s sl = some ⟨k, r⟩ →
      exec (.readField sl.record sl) s = .next { s with responses := s.responses ++ [.field k r (fieldValue k r)] }) ∧
    (Ready s → readSlot s sl = none → exec (.readField sl.record sl) s = .next { s with fault := true }) ∧
    (s.call ≠ .none → exec (.readField sl.record sl) s = .next { s with refused := true })

/-- ARRIVE appends a byte at any time, and changes nothing else. -/
def Obligations.ArriveAppendsToReceiveQueue : Prop :=
  ∀ (b : Byte) (s : State), exec (.arrive b) s = .next { s with rx_fifo := s.rx_fifo ++ [b] }

/-! ## Rules of the whole machine -/

/-- Slots change only in a step that answers OK with a decoded opcode, and only by the rows that decode. -/
def Obligations.SlotsChangeOnlyOnSuccessfulDecode : Prop :=
  ∀ (i : Instr) (s t : State), exec i s = .next t → i.mnemonic ≠ .configure → t.slots ≠ s.slots →
    (∃ op, t.responses = s.responses ++ [.decoded .ok (some op)]) ∧
    i.mnemonic ∈ [Mnemonic.decode, .poll, .terminator, .identOk, .opArm, .opRequestTelemetry]

/-- Two runs of the same inputs, one with diagnostics bound and one without, differ in diagnostics only. -/
def Obligations.DiagnosticsChangeNothingElse : Prop :=
  ∀ (k : Nat) (s t : State), (∀ l ∈ s.inputs, l.name ≠ .bindDiag) → SameButDiagnostics s t →
    SameOutcome (Sys2Proof.core.run k s) (Sys2Proof.core.run k t)

/-- No instruction rewrites the configuration of a configured block. -/
def Obligations.ConfigurationIsNeverRewritten : Prop :=
  ∀ (i : Instr) (s t : State), exec i s = .next t → s.configured = true →
    t.configured = true ∧ t.cfg_timeout = s.cfg_timeout ∧ t.cfg_ident = s.cfg_ident ∧
      t.cfg_crc_init = s.cfg_crc_init ∧ t.cfg_req_sentinel = s.cfg_req_sentinel ∧ t.cfg_optable = s.cfg_optable

/-- The sticky marks stay set, and nothing unbinds a configured block; only READ_FIELD of an unwritten slot sets the `fault` mark.
That CONFIGURE keeps the marks is the model's reading (log 4). -/
def Obligations.MarksAndBindingsAreNeverCleared : Prop :=
  ∀ (i : Instr) (s t : State), exec i s = .next t →
    (s.refused = true → t.refused = true) ∧ (s.fault = true → t.fault = true) ∧
    (s.fault = false → t.fault = true → ∃ sl, i = .readField sl.record sl ∧ readSlot s sl = none ∧ Ready s) ∧
    (s.configured = true → s.transport_bound = true → t.transport_bound = true) ∧
    (s.configured = true → s.diag_bound = true → t.diag_bound = true)

/-- The accumulator is written by CRC_CLEAR, CRC_FEED and CONFIGURE alone: frame traffic never disturbs it. -/
def Obligations.AccumulatorWrittenOnlyByEngine : Prop :=
  ∀ (i : Instr) (s t : State), exec i s = .next t →
    i.mnemonic ∉ [Mnemonic.crcClear, .crcFeed, .configure] → t.crc_acc = s.crc_acc

/-- `tx_log` only grows, and by TX_SEND and REQUEST alone. -/
def Obligations.TransmitLogGrowsOnlyBySends : Prop :=
  ∀ (i : Instr) (s t : State), exec i s = .next t → i.mnemonic ≠ .configure →
    ∃ bytes, t.tx_log = s.tx_log ++ bytes ∧ (i.mnemonic ∉ [Mnemonic.txSend, .request] → bytes = [])

/-- But for ARRIVE, the receive queue changes only by a POLL in time, which takes its head. -/
def Obligations.ReceiveQueueLosesOnlyItsHead : Prop :=
  ∀ (i : Instr) (s t : State), exec i s = .next t → i.mnemonic ≠ .arrive →
    t.rx_fifo = s.rx_fifo ∨
    ∃ time b, i = .poll time ∧ s.call ≠ .none ∧ time < s.rx_deadline ∧ s.rx_fifo = b :: t.rx_fifo

/-- Time never decreases from one step to the next. -/
def Obligations.TimeNeverDecreases : Prop :=
  ∀ s t : State, step s = .next t → s.now ≤ t.now

/-! ## Steps, encodings, the invariant -/

/-- A step runs the instruction the oldest line decodes to, in the state with the line taken at its time; a line that is no
operation, or whose time lies in the past, sets the `refused` mark; with no line pending nothing happens (log 6, log 7, log 10). -/
def Obligations.StepRunsDecodedLine : Prop :=
  ∀ s : State,
    (s.inputs = [] → step s = .next s) ∧
    (∀ l rest, s.inputs = l :: rest →
      (∀ i, s.now ≤ l.now → decode (.line l) = .ok i → step s = exec i { s with inputs := rest, now := l.now }) ∧
      (∀ r, s.now ≤ l.now → decode (.line l) = .error r →
        step s = .next { s with inputs := rest, now := l.now, refused := true }) ∧
      (l.now < s.now → step s = .next { s with inputs := rest, refused := true }))

/-- Every well-formed operation of the host or the environment is written as a line that decodes to it, with every operand. -/
def Obligations.LineDecodesToEncodedInstruction : Prop :=
  ∀ (c : WireContext) (now : Nat) (i : Instr), i.wellFormed = true → i.mnemonic.format ≠ .wireByte →
    ∃ l, encode c now i = some (.line l) ∧ decode (.line l) = .ok i

/-- What a line decodes to is well-formed. -/
def Obligations.DecodedLineIsWellFormed : Prop :=
  ∀ (l : HostLine) (i : Instr), decode (.line l) = .ok i → i.wellFormed = true

/-- In each context a byte decodes to a row exactly when the row is encoded by that byte there. Which of OP_REQUEST_TELEMETRY and
OP_ARM an opcode 0x01 with an arm like the default's is, is the model's choice (log 25). -/
def Obligations.WireByteDecodesToEncodedRow : Prop :=
  ∀ (c : WireContext) (now : Nat) (i : Instr) (b : Byte),
    encode c now i = some (.wire c b) ↔ decode (.wire c b) = .ok i

/-- The bytes of the selector map, each in its context. That 0x01 under the default table is the row OP_REQUEST_TELEMETRY, not
OP_ARM, is the model's choice (log 25). -/
def Obligations.SelectorBytesDecode : Prop :=
  decode (.wire (.rx .start) 0x02) = .ok .startShort ∧
  decode (.wire (.rx .start) 0x03) = .ok .startLong ∧
  decode (.wire (.rx .start) 0xAA) = .ok (.startOther 0xAA) ∧
  decode (.wire (.rx .length) 0x03) = .ok (.length 0x03) ∧
  decode (.wire (.rx .middle) 0x03) = .ok (.data 0x03) ∧
  decode (.wire (.rx .last) 0x03) = .ok .terminator ∧
  decode (.wire (.rx .last) 0x04) = .ok (.notTerminator 0x04) ∧
  decode (.wire (.ident 0x66) 0x66) = .ok .identOk ∧
  decode (.wire (.ident 0x66) 0x65) = .ok (.identMismatch 0x65) ∧
  decode (.wire (.opcode defaultTable) 0x01) = .ok .opRequestTelemetry ∧
  decode (.wire (.opcode defaultTable) 0x02) = .ok (.opUnknown 0x02)

/-- The invariant is kept by every step, from every state that has it. -/
def Obligations.StepKeepsInvariant : Prop :=
  ∀ s t : State, Inv s → step s = .next t → Inv t

/-- From a state with the invariant the machine never stops: every instruction, and every step, answers a next state. -/
def Obligations.InvariantStateNeverStops : Prop :=
  ∀ s : State, Inv s → (∃ t, step s = .next t) ∧ ∀ i : Instr, ∃ t, exec i s = .next t

/-- The numbers of the outcome codes and of the diagnostic events. -/
def Obligations.OutcomeAndDiagnosticNumbers : Prop :=
  ([OutcomeCode.ok, .timeout, .noTransport, .unsupportedLongFrame, .bufferOverflow, .checksumMismatch,
    .identifierMismatch, .unknownOpcode, .truncated, .payloadTooLong].map OutcomeCode.number =
      [0, 1, 2, 3, 4, 5, 6, 7, 8, 9]) ∧
  ∀ (b : Byte) (x y : Word16) (o : OutcomeCode),
    [Diag.malformedStart b, .frameAccepted b, .checksumMismatch x y, .frameRejected o b].map Diag.number = [1, 2, 3, 4]
end

