-- ==== Sys2Proof/Laws/Cells.lean ====
section
/-!
SUPPORT. Laws of `Cells`: read after write, and that every operation keeps the canonical form.
-/

namespace Sys2Proof

variable {α : Type}

@[simp] theorem Cells.read_nil (k : Nat) : Cells.read ([] : Cells α) k = none := rfl

@[simp] theorem Cells.read_write_same (m : Cells α) (k : Nat) (v : α) :
    Cells.read (Cells.write m k v) k = some v := by
  induction m with
  | nil => simp [Cells.write, Cells.read]
  | cons c rest ih =>
    obtain ⟨j, w⟩ := c
    by_cases h1 : k < j
    · simp [Cells.write, Cells.read, h1]
    · by_cases h2 : k = j
      · simp [Cells.write, Cells.read, h2]
      · simp [Cells.write, Cells.read, h1, h2, Ne.symm h2, ih]

theorem Cells.read_write_other (m : Cells α) (k k' : Nat) (v : α) (h : k' ≠ k) :
    Cells.read (Cells.write m k v) k' = Cells.read m k' := by
  induction m with
  | nil => simp [Cells.write, Cells.read, Ne.symm h]
  | cons c rest ih =>
    obtain ⟨j, w⟩ := c
    by_cases h1 : k < j
    · simp [Cells.write, Cells.read, h1, Ne.symm h]
    · by_cases h2 : k = j
      · subst h2; simp [Cells.write, Cells.read, Ne.symm h]
      · simp [Cells.write, Cells.read, h1, h2, ih]

/-- A cell of the map after a write is the written one or one of before. -/
theorem Cells.mem_write (m : Cells α) (k : Nat) (v : α) (c : Nat × α) (h : c ∈ Cells.write m k v) :
    c = (k, v) ∨ c ∈ m := by
  induction m with
  | nil => simpa [Cells.write] using h
  | cons d rest ih =>
    obtain ⟨j, w⟩ := d
    unfold Cells.write at h
    split at h
    · simpa using h
    · split at h
      · rcases List.mem_cons.mp h with rfl | h
        · exact .inl rfl
        · exact .inr (List.mem_cons_of_mem _ h)
      · rcases List.mem_cons.mp h with rfl | h
        · exact .inr List.mem_cons_self
        · exact (ih h).imp id (List.mem_cons_of_mem _)

theorem Cells.wf_nil : Cells.wf ([] : Cells α) := List.Pairwise.nil

theorem Cells.wf_write (m : Cells α) (k : Nat) (v : α) (h : Cells.wf m) : Cells.wf (Cells.write m k v) := by
  induction m with
  | nil => exact List.pairwise_singleton _ _
  | cons d rest ih =>
    obtain ⟨j, w⟩ := d
    have hd : ∀ c ∈ rest, j < c.1 := (List.pairwise_cons.mp h).1
    have hr : Cells.wf rest := (List.pairwise_cons.mp h).2
    unfold Cells.write
    split
    · rename_i hk
      refine List.pairwise_cons.mpr ⟨?_, h⟩
      intro c hc
      rcases List.mem_cons.mp hc with rfl | hc
      · exact hk
      · exact lt_trans hk (hd c hc)
    · split
      · rename_i hk
        exact List.pairwise_cons.mpr ⟨fun c hc => hk ▸ hd c hc, hr⟩
      · rename_i h1 h2
        refine List.pairwise_cons.mpr ⟨?_, ih hr⟩
        intro c hc
        rcases Cells.mem_write rest k v c hc with rfl | hc
        · exact lt_of_le_of_ne (not_lt.mp h1) (Ne.symm h2)
        · exact hd c hc

theorem Cells.wf_foldl_write (rows : List (Nat × α)) (m : Cells α) (h : Cells.wf m) :
    Cells.wf (rows.foldl (fun m r => Cells.write m r.1 r.2) m) := by
  induction rows generalizing m with
  | nil => exact h
  | cons r rest ih => exact ih _ (Cells.wf_write m r.1 r.2 h)

theorem Cells.wf_ofList (rows : List (Nat × α)) : Cells.wf (Cells.ofList rows) :=
  Cells.wf_foldl_write rows [] Cells.wf_nil

/-- A key above all keys of the map goes to its end. -/
theorem Cells.write_above (m : Cells α) (k : Nat) (v : α) (h : ∀ c ∈ m, c.1 < k) :
    Cells.write m k v = m ++ [(k, v)] := by
  induction m with
  | nil => rfl
  | cons d rest ih =>
    obtain ⟨j, w⟩ := d
    have hj : j < k := h (j, w) List.mem_cons_self
    simp [Cells.write, Nat.not_lt.mpr hj.le, Nat.ne_of_gt hj, ih (fun c hc => h c (List.mem_cons_of_mem _ hc))]

theorem Cells.foldl_write_append (rows m : List (Nat × α)) (h : Cells.wf (m ++ rows)) :
    rows.foldl (fun m r => Cells.write m r.1 r.2) m = m ++ rows := by
  induction rows generalizing m with
  | nil => simp
  | cons r rest ih =>
    have hlt : ∀ c ∈ m, c.1 < r.1 :=
      fun c hc => (List.pairwise_append.mp h).2.2 c hc r List.mem_cons_self
    have hstep : Cells.write m r.1 r.2 = m ++ [r] := Cells.write_above m r.1 r.2 hlt
    rw [List.foldl_cons, hstep, ih _ (by simpa using h)]
    simp

/-- A map in canonical form is the map of its own rows. -/
theorem Cells.ofList_of_wf (m : Cells α) (h : Cells.wf m) : Cells.ofList m = m := by
  simpa [Cells.ofList] using Cells.foldl_write_append m [] (by simpa using h)

/-- What a canonical map holds at a key is the cell it lists there. -/
theorem Cells.read_eq_some_iff (m : Cells α) (h : Cells.wf m) (k : Nat) (v : α) :
    Cells.read m k = some v ↔ (k, v) ∈ m := by
  induction m with
  | nil => simp
  | cons d rest ih =>
    obtain ⟨j, w⟩ := d
    have hd : ∀ c ∈ rest, j < c.1 := (List.pairwise_cons.mp h).1
    have hr : Cells.wf rest := (List.pairwise_cons.mp h).2
    by_cases hj : j = k
    · subst hj
      have : (j, v) ∉ rest := fun hm => absurd (hd _ hm) (lt_irrefl _)
      simp [Cells.read, this, eq_comm]
    · simp [Cells.read, hj, Ne.symm hj, ih hr]

/-- What a read answers is a cell of the map. -/
theorem Cells.mem_of_read (m : Cells α) (k : Nat) (v : α) (h : Cells.read m k = some v) : (k, v) ∈ m := by
  induction m with
  | nil => simp at h
  | cons d rest ih =>
    obtain ⟨j, w⟩ := d
    by_cases hj : j = k
    · subst hj; simp [Cells.read] at h; simp [h]
    · simp [Cells.read, hj] at h; exact List.mem_cons_of_mem _ (ih h)

/-- Different slots are kept under different numbers. -/
theorem Slot.key_injective {a b : Slot} (h : a.key = b.key) : a = b := by
  cases a with
  | added r n =>
    cases b with
    | added r' n' => cases r <;> cases r' <;> simp [Slot.key] at h ⊢ <;> omega
    | _ => cases r <;> simp [Slot.key] at h <;> omega
  | _ =>
    cases b with
    | added r' n' => cases r' <;> simp [Slot.key] at h <;> omega
    | _ => first | rfl | simp [Slot.key] at h

end Sys2Proof
end

