-- ==== Sys2Proof/Laws/Operands.lean ====
section
/-!
SUPPORT. Laws of the operand forms: big-endian pairs, the width of an arm as a sum, and that reading a field looks at its own
bytes only.
-/

namespace Sys2Proof

/-- The two big-endian bytes of a 16-bit word. -/
theorem bigEndian_two (c : Word16) : bigEndian 2 c.toNat = [c.extractLsb' 8 8, c.extractLsb' 0 8] := by
  simp only [bigEndian, Nat.pow_one, Nat.pow_zero, Nat.div_one]
  congr 1
  apply BitVec.eq_of_toNat_eq
  simp [BitVec.extractLsb'_toNat, Nat.shiftRight_eq_div_pow]

/-- Two bytes read big-endian are the word they make. -/
theorem memRead_pair (a b : Byte) : BitVec.ofNat 16 (memRead [a, b] 0 2) = a ++ b := by
  apply BitVec.eq_of_toNat_eq
  have := a.isLt
  have := b.isLt
  rw [BitVec.toNat_append, BitVec.toNat_ofNat]
  simp only [memRead, List.drop_zero, List.take, List.foldl]
  rw [Nat.shiftLeft_add_eq_or_of_lt (by omega) a.toNat |>.symm, Nat.shiftLeft_eq]
  omega

theorem fieldsWidth_eq_sum (fs : List Field) : fieldsWidth fs = (fs.map (fun f => f.kind.width)).sum := by
  induction fs <;> simp_all [fieldsWidth]

/-- A field inside `p` reads the same when bytes follow `p`. -/
theorem getField_append (k : Kind) (p q : List Byte) (i : Nat) (h : i + k.width ≤ p.length) :
    getField k (p ++ q) i = getField k p i := by
  simp only [getField, memRead]
  rw [List.drop_append_of_le_length (by omega), List.take_append_of_le_length (by simp; omega)]

end Sys2Proof
end

