-- ==== Sys2Proof/Laws/State.lean ====
section
/-!
SUPPORT. What each named operation does to each field of the state: one lemma per field per operation, true by rfl.
-/

namespace Sys2Proof.Machine

variable (s : State)

/-! ## `respond` -/

@[simp] theorem respond_cfg_timeout (r : Response) : (respond r s).cfg_timeout = s.cfg_timeout := rfl
@[simp] theorem respond_cfg_ident (r : Response) : (respond r s).cfg_ident = s.cfg_ident := rfl
@[simp] theorem respond_cfg_crc_init (r : Response) : (respond r s).cfg_crc_init = s.cfg_crc_init := rfl
@[simp] theorem respond_cfg_req_sentinel (r : Response) : (respond r s).cfg_req_sentinel = s.cfg_req_sentinel := rfl
@[simp] theorem respond_cfg_optable (r : Response) : (respond r s).cfg_optable = s.cfg_optable := rfl
@[simp] theorem respond_configured (r : Response) : (respond r s).configured = s.configured := rfl
@[simp] theorem respond_transport_bound (r : Response) : (respond r s).transport_bound = s.transport_bound := rfl
@[simp] theorem respond_diag_bound (r : Response) : (respond r s).diag_bound = s.diag_bound := rfl
@[simp] theorem respond_crc_acc (r : Response) : (respond r s).crc_acc = s.crc_acc := rfl
@[simp] theorem respond_call (r : Response) : (respond r s).call = s.call := rfl
@[simp] theorem respond_rx_state (r : Response) : (respond r s).rx_state = s.rx_state := rfl
@[simp] theorem respond_rx_buf (r : Response) : (respond r s).rx_buf = s.rx_buf := rfl
@[simp] theorem respond_rx_count (r : Response) : (respond r s).rx_count = s.rx_count := rfl
@[simp] theorem respond_rx_expected (r : Response) : (respond r s).rx_expected = s.rx_expected := rfl
@[simp] theorem respond_rx_len (r : Response) : (respond r s).rx_len = s.rx_len := rfl
@[simp] theorem respond_rx_deadline (r : Response) : (respond r s).rx_deadline = s.rx_deadline := rfl
@[simp] theorem respond_payload (r : Response) : (respond r s).payload = s.payload := rfl
@[simp] theorem respond_slots (r : Response) : (respond r s).slots = s.slots := rfl
@[simp] theorem respond_rx_fifo (r : Response) : (respond r s).rx_fifo = s.rx_fifo := rfl
@[simp] theorem respond_tx_log (r : Response) : (respond r s).tx_log = s.tx_log := rfl
@[simp] theorem respond_diag_log (r : Response) : (respond r s).diag_log = s.diag_log := rfl
@[simp] theorem respond_refused (r : Response) : (respond r s).refused = s.refused := rfl
@[simp] theorem respond_fault (r : Response) : (respond r s).fault = s.fault := rfl
@[simp] theorem respond_now (r : Response) : (respond r s).now = s.now := rfl
@[simp] theorem respond_inputs (r : Response) : (respond r s).inputs = s.inputs := rfl
@[simp] theorem respond_responses (r : Response) : (respond r s).responses = s.responses ++ [r] := rfl
@[simp] theorem respond_tx_answers (r : Response) : (respond r s).tx_answers = s.tx_answers := rfl
@[simp] theorem respond_tx_draws (r : Response) : (respond r s).tx_draws = s.tx_draws := rfl

/-! ## `emit` -/

@[simp] theorem emit_cfg_timeout (d : Diag) : (emit d s).cfg_timeout = s.cfg_timeout := rfl
@[simp] theorem emit_cfg_ident (d : Diag) : (emit d s).cfg_ident = s.cfg_ident := rfl
@[simp] theorem emit_cfg_crc_init (d : Diag) : (emit d s).cfg_crc_init = s.cfg_crc_init := rfl
@[simp] theorem emit_cfg_req_sentinel (d : Diag) : (emit d s).cfg_req_sentinel = s.cfg_req_sentinel := rfl
@[simp] theorem emit_cfg_optable (d : Diag) : (emit d s).cfg_optable = s.cfg_optable := rfl
@[simp] theorem emit_configured (d : Diag) : (emit d s).configured = s.configured := rfl
@[simp] theorem emit_transport_bound (d : Diag) : (emit d s).transport_bound = s.transport_bound := rfl
@[simp] theorem emit_diag_bound (d : Diag) : (emit d s).diag_bound = s.diag_bound := rfl
@[simp] theorem emit_crc_acc (d : Diag) : (emit d s).crc_acc = s.crc_acc := rfl
@[simp] theorem emit_call (d : Diag) : (emit d s).call = s.call := rfl
@[simp] theorem emit_rx_state (d : Diag) : (emit d s).rx_state = s.rx_state := rfl
@[simp] theorem emit_rx_buf (d : Diag) : (emit d s).rx_buf = s.rx_buf := rfl
@[simp] theorem emit_rx_count (d : Diag) : (emit d s).rx_count = s.rx_count := rfl
@[simp] theorem emit_rx_expected (d : Diag) : (emit d s).rx_expected = s.rx_expected := rfl
@[simp] theorem emit_rx_len (d : Diag) : (emit d s).rx_len = s.rx_len := rfl
@[simp] theorem emit_rx_deadline (d : Diag) : (emit d s).rx_deadline = s.rx_deadline := rfl
@[simp] theorem emit_payload (d : Diag) : (emit d s).payload = s.payload := rfl
@[simp] theorem emit_slots (d : Diag) : (emit d s).slots = s.slots := rfl
@[simp] theorem emit_rx_fifo (d : Diag) : (emit d s).rx_fifo = s.rx_fifo := rfl
@[simp] theorem emit_tx_log (d : Diag) : (emit d s).tx_log = s.tx_log := rfl
@[simp] theorem emit_diag_log (d : Diag) : (emit d s).diag_log = if s.diag_bound then s.diag_log ++ [d] else s.diag_log := rfl
@[simp] theorem emit_refused (d : Diag) : (emit d s).refused = s.refused := rfl
@[simp] theorem emit_fault (d : Diag) : (emit d s).fault = s.fault := rfl
@[simp] theorem emit_now (d : Diag) : (emit d s).now = s.now := rfl
@[simp] theorem emit_inputs (d : Diag) : (emit d s).inputs = s.inputs := rfl
@[simp] theorem emit_responses (d : Diag) : (emit d s).responses = s.responses := rfl
@[simp] theorem emit_tx_answers (d : Diag) : (emit d s).tx_answers = s.tx_answers := rfl
@[simp] theorem emit_tx_draws (d : Diag) : (emit d s).tx_draws = s.tx_draws := rfl

/-! ## `refuse` -/

@[simp] theorem refuse_cfg_timeout : (refuse s).cfg_timeout = s.cfg_timeout := rfl
@[simp] theorem refuse_cfg_ident : (refuse s).cfg_ident = s.cfg_ident := rfl
@[simp] theorem refuse_cfg_crc_init : (refuse s).cfg_crc_init = s.cfg_crc_init := rfl
@[simp] theorem refuse_cfg_req_sentinel : (refuse s).cfg_req_sentinel = s.cfg_req_sentinel := rfl
@[simp] theorem refuse_cfg_optable : (refuse s).cfg_optable = s.cfg_optable := rfl
@[simp] theorem refuse_configured : (refuse s).configured = s.configured := rfl
@[simp] theorem refuse_transport_bound : (refuse s).transport_bound = s.transport_bound := rfl
@[simp] theorem refuse_diag_bound : (refuse s).diag_bound = s.diag_bound := rfl
@[simp] theorem refuse_crc_acc : (refuse s).crc_acc = s.crc_acc := rfl
@[simp] theorem refuse_call : (refuse s).call = s.call := rfl
@[simp] theorem refuse_rx_state : (refuse s).rx_state = s.rx_state := rfl
@[simp] theorem refuse_rx_buf : (refuse s).rx_buf = s.rx_buf := rfl
@[simp] theorem refuse_rx_count : (refuse s).rx_count = s.rx_count := rfl
@[simp] theorem refuse_rx_expected : (refuse s).rx_expected = s.rx_expected := rfl
@[simp] theorem refuse_rx_len : (refuse s).rx_len = s.rx_len := rfl
@[simp] theorem refuse_rx_deadline : (refuse s).rx_deadline = s.rx_deadline := rfl
@[simp] theorem refuse_payload : (refuse s).payload = s.payload := rfl
@[simp] theorem refuse_slots : (refuse s).slots = s.slots := rfl
@[simp] theorem refuse_rx_fifo : (refuse s).rx_fifo = s.rx_fifo := rfl
@[simp] theorem refuse_tx_log : (refuse s).tx_log = s.tx_log := rfl
@[simp] theorem refuse_diag_log : (refuse s).diag_log = s.diag_log := rfl
@[simp] theorem refuse_refused : (refuse s).refused = true := rfl
@[simp] theorem refuse_fault : (refuse s).fault = s.fault := rfl
@[simp] theorem refuse_now : (refuse s).now = s.now := rfl
@[simp] theorem refuse_inputs : (refuse s).inputs = s.inputs := rfl
@[simp] theorem refuse_responses : (refuse s).responses = s.responses := rfl
@[simp] theorem refuse_tx_answers : (refuse s).tx_answers = s.tx_answers := rfl
@[simp] theorem refuse_tx_draws : (refuse s).tx_draws = s.tx_draws := rfl

/-! ## `markFault` -/

@[simp] theorem markFault_cfg_timeout : (markFault s).cfg_timeout = s.cfg_timeout := rfl
@[simp] theorem markFault_cfg_ident : (markFault s).cfg_ident = s.cfg_ident := rfl
@[simp] theorem markFault_cfg_crc_init : (markFault s).cfg_crc_init = s.cfg_crc_init := rfl
@[simp] theorem markFault_cfg_req_sentinel : (markFault s).cfg_req_sentinel = s.cfg_req_sentinel := rfl
@[simp] theorem markFault_cfg_optable : (markFault s).cfg_optable = s.cfg_optable := rfl
@[simp] theorem markFault_configured : (markFault s).configured = s.configured := rfl
@[simp] theorem markFault_transport_bound : (markFault s).transport_bound = s.transport_bound := rfl
@[simp] theorem markFault_diag_bound : (markFault s).diag_bound = s.diag_bound := rfl
@[simp] theorem markFault_crc_acc : (markFault s).crc_acc = s.crc_acc := rfl
@[simp] theorem markFault_call : (markFault s).call = s.call := rfl
@[simp] theorem markFault_rx_state : (markFault s).rx_state = s.rx_state := rfl
@[simp] theorem markFault_rx_buf : (markFault s).rx_buf = s.rx_buf := rfl
@[simp] theorem markFault_rx_count : (markFault s).rx_count = s.rx_count := rfl
@[simp] theorem markFault_rx_expected : (markFault s).rx_expected = s.rx_expected := rfl
@[simp] theorem markFault_rx_len : (markFault s).rx_len = s.rx_len := rfl
@[simp] theorem markFault_rx_deadline : (markFault s).rx_deadline = s.rx_deadline := rfl
@[simp] theorem markFault_payload : (markFault s).payload = s.payload := rfl
@[simp] theorem markFault_slots : (markFault s).slots = s.slots := rfl
@[simp] theorem markFault_rx_fifo : (markFault s).rx_fifo = s.rx_fifo := rfl
@[simp] theorem markFault_tx_log : (markFault s).tx_log = s.tx_log := rfl
@[simp] theorem markFault_diag_log : (markFault s).diag_log = s.diag_log := rfl
@[simp] theorem markFault_refused : (markFault s).refused = s.refused := rfl
@[simp] theorem markFault_fault : (markFault s).fault = true := rfl
@[simp] theorem markFault_now : (markFault s).now = s.now := rfl
@[simp] theorem markFault_inputs : (markFault s).inputs = s.inputs := rfl
@[simp] theorem markFault_responses : (markFault s).responses = s.responses := rfl
@[simp] theorem markFault_tx_answers : (markFault s).tx_answers = s.tx_answers := rfl
@[simp] theorem markFault_tx_draws : (markFault s).tx_draws = s.tx_draws := rfl

/-! ## `openCall` -/

@[simp] theorem openCall_cfg_timeout (c : Call) : (openCall c s).cfg_timeout = s.cfg_timeout := rfl
@[simp] theorem openCall_cfg_ident (c : Call) : (openCall c s).cfg_ident = s.cfg_ident := rfl
@[simp] theorem openCall_cfg_crc_init (c : Call) : (openCall c s).cfg_crc_init = s.cfg_crc_init := rfl
@[simp] theorem openCall_cfg_req_sentinel (c : Call) : (openCall c s).cfg_req_sentinel = s.cfg_req_sentinel := rfl
@[simp] theorem openCall_cfg_optable (c : Call) : (openCall c s).cfg_optable = s.cfg_optable := rfl
@[simp] theorem openCall_configured (c : Call) : (openCall c s).configured = s.configured := rfl
@[simp] theorem openCall_transport_bound (c : Call) : (openCall c s).transport_bound = s.transport_bound := rfl
@[simp] theorem openCall_diag_bound (c : Call) : (openCall c s).diag_bound = s.diag_bound := rfl
@[simp] theorem openCall_crc_acc (c : Call) : (openCall c s).crc_acc = s.crc_acc := rfl
@[simp] theorem openCall_call (c : Call) : (openCall c s).call = c := rfl
@[simp] theorem openCall_rx_state (c : Call) : (openCall c s).rx_state = .awaitStart := rfl
@[simp] theorem openCall_rx_buf (c : Call) : (openCall c s).rx_buf = s.rx_buf := rfl
@[simp] theorem openCall_rx_count (c : Call) : (openCall c s).rx_count = 0 := rfl
@[simp] theorem openCall_rx_expected (c : Call) : (openCall c s).rx_expected = 0 := rfl
@[simp] theorem openCall_rx_len (c : Call) : (openCall c s).rx_len = 0 := rfl
@[simp] theorem openCall_rx_deadline (c : Call) : (openCall c s).rx_deadline = s.now + s.cfg_timeout := rfl
@[simp] theorem openCall_payload (c : Call) : (openCall c s).payload = s.payload := rfl
@[simp] theorem openCall_slots (c : Call) : (openCall c s).slots = s.slots := rfl
@[simp] theorem openCall_rx_fifo (c : Call) : (openCall c s).rx_fifo = s.rx_fifo := rfl
@[simp] theorem openCall_tx_log (c : Call) : (openCall c s).tx_log = s.tx_log := rfl
@[simp] theorem openCall_diag_log (c : Call) : (openCall c s).diag_log = s.diag_log := rfl
@[simp] theorem openCall_refused (c : Call) : (openCall c s).refused = s.refused := rfl
@[simp] theorem openCall_fault (c : Call) : (openCall c s).fault = s.fault := rfl
@[simp] theorem openCall_now (c : Call) : (openCall c s).now = s.now := rfl
@[simp] theorem openCall_inputs (c : Call) : (openCall c s).inputs = s.inputs := rfl
@[simp] theorem openCall_responses (c : Call) : (openCall c s).responses = s.responses := rfl
@[simp] theorem openCall_tx_answers (c : Call) : (openCall c s).tx_answers = s.tx_answers := rfl
@[simp] theorem openCall_tx_draws (c : Call) : (openCall c s).tx_draws = s.tx_draws := rfl

/-! ## `closeCall` -/

@[simp] theorem closeCall_cfg_timeout : (closeCall s).cfg_timeout = s.cfg_timeout := rfl
@[simp] theorem closeCall_cfg_ident : (closeCall s).cfg_ident = s.cfg_ident := rfl
@[simp] theorem closeCall_cfg_crc_init : (closeCall s).cfg_crc_init = s.cfg_crc_init := rfl
@[simp] theorem closeCall_cfg_req_sentinel : (closeCall s).cfg_req_sentinel = s.cfg_req_sentinel := rfl
@[simp] theorem closeCall_cfg_optable : (closeCall s).cfg_optable = s.cfg_optable := rfl
@[simp] theorem closeCall_configured : (closeCall s).configured = s.configured := rfl
@[simp] theorem closeCall_transport_bound : (closeCall s).transport_bound = s.transport_bound := rfl
@[simp] theorem closeCall_diag_bound : (closeCall s).diag_bound = s.diag_bound := rfl
@[simp] theorem closeCall_crc_acc : (closeCall s).crc_acc = s.crc_acc := rfl
@[simp] theorem closeCall_call : (closeCall s).call = .none := rfl
@[simp] theorem closeCall_rx_state : (closeCall s).rx_state = .awaitStart := rfl
@[simp] theorem closeCall_rx_buf : (closeCall s).rx_buf = s.rx_buf := rfl
@[simp] theorem closeCall_rx_count : (closeCall s).rx_count = s.rx_count := rfl
@[simp] theorem closeCall_rx_expected : (closeCall s).rx_expected = s.rx_expected := rfl
@[simp] theorem closeCall_rx_len : (closeCall s).rx_len = s.rx_len := rfl
@[simp] theorem closeCall_rx_deadline : (closeCall s).rx_deadline = s.rx_deadline := rfl
@[simp] theorem closeCall_payload : (closeCall s).payload = s.payload := rfl
@[simp] theorem closeCall_slots : (closeCall s).slots = s.slots := rfl
@[simp] theorem closeCall_rx_fifo : (closeCall s).rx_fifo = s.rx_fifo := rfl
@[simp] theorem closeCall_tx_log : (closeCall s).tx_log = s.tx_log := rfl
@[simp] theorem closeCall_diag_log : (closeCall s).diag_log = s.diag_log := rfl
@[simp] theorem closeCall_refused : (closeCall s).refused = s.refused := rfl
@[simp] theorem closeCall_fault : (closeCall s).fault = s.fault := rfl
@[simp] theorem closeCall_now : (closeCall s).now = s.now := rfl
@[simp] theorem closeCall_inputs : (closeCall s).inputs = s.inputs := rfl
@[simp] theorem closeCall_responses : (closeCall s).responses = s.responses := rfl
@[simp] theorem closeCall_tx_answers : (closeCall s).tx_answers = s.tx_answers := rfl
@[simp] theorem closeCall_tx_draws : (closeCall s).tx_draws = s.tx_draws := rfl

/-! ## `rxStore` -/

@[simp] theorem rxStore_cfg_timeout (i : Nat) (b : Byte) : (rxStore i b s).cfg_timeout = s.cfg_timeout := rfl
@[simp] theorem rxStore_cfg_ident (i : Nat) (b : Byte) : (rxStore i b s).cfg_ident = s.cfg_ident := rfl
@[simp] theorem rxStore_cfg_crc_init (i : Nat) (b : Byte) : (rxStore i b s).cfg_crc_init = s.cfg_crc_init := rfl
@[simp] theorem rxStore_cfg_req_sentinel (i : Nat) (b : Byte) : (rxStore i b s).cfg_req_sentinel = s.cfg_req_sentinel := rfl
@[simp] theorem rxStore_cfg_optable (i : Nat) (b : Byte) : (rxStore i b s).cfg_optable = s.cfg_optable := rfl
@[simp] theorem rxStore_configured (i : Nat) (b : Byte) : (rxStore i b s).configured = s.configured := rfl
@[simp] theorem rxStore_transport_bound (i : Nat) (b : Byte) : (rxStore i b s).transport_bound = s.transport_bound := rfl
@[simp] theorem rxStore_diag_bound (i : Nat) (b : Byte) : (rxStore i b s).diag_bound = s.diag_bound := rfl
@[simp] theorem rxStore_crc_acc (i : Nat) (b : Byte) : (rxStore i b s).crc_acc = s.crc_acc := rfl
@[simp] theorem rxStore_call (i : Nat) (b : Byte) : (rxStore i b s).call = s.call := rfl
@[simp] theorem rxStore_rx_state (i : Nat) (b : Byte) : (rxStore i b s).rx_state = s.rx_state := rfl
@[simp] theorem rxStore_rx_buf (i : Nat) (b : Byte) : (rxStore i b s).rx_buf = Cells.write s.rx_buf i b := rfl
@[simp] theorem rxStore_rx_count (i : Nat) (b : Byte) : (rxStore i b s).rx_count = s.rx_count := rfl
@[simp] theorem rxStore_rx_expected (i : Nat) (b : Byte) : (rxStore i b s).rx_expected = s.rx_expected := rfl
@[simp] theorem rxStore_rx_len (i : Nat) (b : Byte) : (rxStore i b s).rx_len = s.rx_len := rfl
@[simp] theorem rxStore_rx_deadline (i : Nat) (b : Byte) : (rxStore i b s).rx_deadline = s.rx_deadline := rfl
@[simp] theorem rxStore_payload (i : Nat) (b : Byte) : (rxStore i b s).payload = s.payload := rfl
@[simp] theorem rxStore_slots (i : Nat) (b : Byte) : (rxStore i b s).slots = s.slots := rfl
@[simp] theorem rxStore_rx_fifo (i : Nat) (b : Byte) : (rxStore i b s).rx_fifo = s.rx_fifo := rfl
@[simp] theorem rxStore_tx_log (i : Nat) (b : Byte) : (rxStore i b s).tx_log = s.tx_log := rfl
@[simp] theorem rxStore_diag_log (i : Nat) (b : Byte) : (rxStore i b s).diag_log = s.diag_log := rfl
@[simp] theorem rxStore_refused (i : Nat) (b : Byte) : (rxStore i b s).refused = s.refused := rfl
@[simp] theorem rxStore_fault (i : Nat) (b : Byte) : (rxStore i b s).fault = s.fault := rfl
@[simp] theorem rxStore_now (i : Nat) (b : Byte) : (rxStore i b s).now = s.now := rfl
@[simp] theorem rxStore_inputs (i : Nat) (b : Byte) : (rxStore i b s).inputs = s.inputs := rfl
@[simp] theorem rxStore_responses (i : Nat) (b : Byte) : (rxStore i b s).responses = s.responses := rfl
@[simp] theorem rxStore_tx_answers (i : Nat) (b : Byte) : (rxStore i b s).tx_answers = s.tx_answers := rfl
@[simp] theorem rxStore_tx_draws (i : Nat) (b : Byte) : (rxStore i b s).tx_draws = s.tx_draws := rfl

/-! ## `rxAppend` -/

@[simp] theorem rxAppend_cfg_timeout (b : Byte) : (rxAppend b s).cfg_timeout = s.cfg_timeout := rfl
@[simp] theorem rxAppend_cfg_ident (b : Byte) : (rxAppend b s).cfg_ident = s.cfg_ident := rfl
@[simp] theorem rxAppend_cfg_crc_init (b : Byte) : (rxAppend b s).cfg_crc_init = s.cfg_crc_init := rfl
@[simp] theorem rxAppend_cfg_req_sentinel (b : Byte) : (rxAppend b s).cfg_req_sentinel = s.cfg_req_sentinel := rfl
@[simp] theorem rxAppend_cfg_optable (b : Byte) : (rxAppend b s).cfg_optable = s.cfg_optable := rfl
@[simp] theorem rxAppend_configured (b : Byte) : (rxAppend b s).configured = s.configured := rfl
@[simp] theorem rxAppend_transport_bound (b : Byte) : (rxAppend b s).transport_bound = s.transport_bound := rfl
@[simp] theorem rxAppend_diag_bound (b : Byte) : (rxAppend b s).diag_bound = s.diag_bound := rfl
@[simp] theorem rxAppend_crc_acc (b : Byte) : (rxAppend b s).crc_acc = s.crc_acc := rfl
@[simp] theorem rxAppend_call (b : Byte) : (rxAppend b s).call = s.call := rfl
@[simp] theorem rxAppend_rx_state (b : Byte) : (rxAppend b s).rx_state = s.rx_state := rfl
@[simp] theorem rxAppend_rx_buf (b : Byte) : (rxAppend b s).rx_buf = Cells.write s.rx_buf s.rx_count b := rfl
@[simp] theorem rxAppend_rx_count (b : Byte) : (rxAppend b s).rx_count = s.rx_count + 1 := rfl
@[simp] theorem rxAppend_rx_expected (b : Byte) : (rxAppend b s).rx_expected = s.rx_expected := rfl
@[simp] theorem rxAppend_rx_len (b : Byte) : (rxAppend b s).rx_len = s.rx_len := rfl
@[simp] theorem rxAppend_rx_deadline (b : Byte) : (rxAppend b s).rx_deadline = s.rx_deadline := rfl
@[simp] theorem rxAppend_payload (b : Byte) : (rxAppend b s).payload = s.payload := rfl
@[simp] theorem rxAppend_slots (b : Byte) : (rxAppend b s).slots = s.slots := rfl
@[simp] theorem rxAppend_rx_fifo (b : Byte) : (rxAppend b s).rx_fifo = s.rx_fifo := rfl
@[simp] theorem rxAppend_tx_log (b : Byte) : (rxAppend b s).tx_log = s.tx_log := rfl
@[simp] theorem rxAppend_diag_log (b : Byte) : (rxAppend b s).diag_log = s.diag_log := rfl
@[simp] theorem rxAppend_refused (b : Byte) : (rxAppend b s).refused = s.refused := rfl
@[simp] theorem rxAppend_fault (b : Byte) : (rxAppend b s).fault = s.fault := rfl
@[simp] theorem rxAppend_now (b : Byte) : (rxAppend b s).now = s.now := rfl
@[simp] theorem rxAppend_inputs (b : Byte) : (rxAppend b s).inputs = s.inputs := rfl
@[simp] theorem rxAppend_responses (b : Byte) : (rxAppend b s).responses = s.responses := rfl
@[simp] theorem rxAppend_tx_answers (b : Byte) : (rxAppend b s).tx_answers = s.tx_answers := rfl
@[simp] theorem rxAppend_tx_draws (b : Byte) : (rxAppend b s).tx_draws = s.tx_draws := rfl

/-! ## `setFifo` -/

@[simp] theorem setFifo_cfg_timeout (f : List Byte) : (setFifo f s).cfg_timeout = s.cfg_timeout := rfl
@[simp] theorem setFifo_cfg_ident (f : List Byte) : (setFifo f s).cfg_ident = s.cfg_ident := rfl
@[simp] theorem setFifo_cfg_crc_init (f : List Byte) : (setFifo f s).cfg_crc_init = s.cfg_crc_init := rfl
@[simp] theorem setFifo_cfg_req_sentinel (f : List Byte) : (setFifo f s).cfg_req_sentinel = s.cfg_req_sentinel := rfl
@[simp] theorem setFifo_cfg_optable (f : List Byte) : (setFifo f s).cfg_optable = s.cfg_optable := rfl
@[simp] theorem setFifo_configured (f : List Byte) : (setFifo f s).configured = s.configured := rfl
@[simp] theorem setFifo_transport_bound (f : List Byte) : (setFifo f s).transport_bound = s.transport_bound := rfl
@[simp] theorem setFifo_diag_bound (f : List Byte) : (setFifo f s).diag_bound = s.diag_bound := rfl
@[simp] theorem setFifo_crc_acc (f : List Byte) : (setFifo f s).crc_acc = s.crc_acc := rfl
@[simp] theorem setFifo_call (f : List Byte) : (setFifo f s).call = s.call := rfl
@[simp] theorem setFifo_rx_state (f : List Byte) : (setFifo f s).rx_state = s.rx_state := rfl
@[simp] theorem setFifo_rx_buf (f : List Byte) : (setFifo f s).rx_buf = s.rx_buf := rfl
@[simp] theorem setFifo_rx_count (f : List Byte) : (setFifo f s).rx_count = s.rx_count := rfl
@[simp] theorem setFifo_rx_expected (f : List Byte) : (setFifo f s).rx_expected = s.rx_expected := rfl
@[simp] theorem setFifo_rx_len (f : List Byte) : (setFifo f s).rx_len = s.rx_len := rfl
@[simp] theorem setFifo_rx_deadline (f : List Byte) : (setFifo f s).rx_deadline = s.rx_deadline := rfl
@[simp] theorem setFifo_payload (f : List Byte) : (setFifo f s).payload = s.payload := rfl
@[simp] theorem setFifo_slots (f : List Byte) : (setFifo f s).slots = s.slots := rfl
@[simp] theorem setFifo_rx_fifo (f : List Byte) : (setFifo f s).rx_fifo = f := rfl
@[simp] theorem setFifo_tx_log (f : List Byte) : (setFifo f s).tx_log = s.tx_log := rfl
@[simp] theorem setFifo_diag_log (f : List Byte) : (setFifo f s).diag_log = s.diag_log := rfl
@[simp] theorem setFifo_refused (f : List Byte) : (setFifo f s).refused = s.refused := rfl
@[simp] theorem setFifo_fault (f : List Byte) : (setFifo f s).fault = s.fault := rfl
@[simp] theorem setFifo_now (f : List Byte) : (setFifo f s).now = s.now := rfl
@[simp] theorem setFifo_inputs (f : List Byte) : (setFifo f s).inputs = s.inputs := rfl
@[simp] theorem setFifo_responses (f : List Byte) : (setFifo f s).responses = s.responses := rfl
@[simp] theorem setFifo_tx_answers (f : List Byte) : (setFifo f s).tx_answers = s.tx_answers := rfl
@[simp] theorem setFifo_tx_draws (f : List Byte) : (setFifo f s).tx_draws = s.tx_draws := rfl

/-! ## `loadPayload` -/

@[simp] theorem loadPayload_cfg_timeout (p : List Byte) : (loadPayload p s).cfg_timeout = s.cfg_timeout := rfl
@[simp] theorem loadPayload_cfg_ident (p : List Byte) : (loadPayload p s).cfg_ident = s.cfg_ident := rfl
@[simp] theorem loadPayload_cfg_crc_init (p : List Byte) : (loadPayload p s).cfg_crc_init = s.cfg_crc_init := rfl
@[simp] theorem loadPayload_cfg_req_sentinel (p : List Byte) : (loadPayload p s).cfg_req_sentinel = s.cfg_req_sentinel := rfl
@[simp] theorem loadPayload_cfg_optable (p : List Byte) : (loadPayload p s).cfg_optable = s.cfg_optable := rfl
@[simp] theorem loadPayload_configured (p : List Byte) : (loadPayload p s).configured = s.configured := rfl
@[simp] theorem loadPayload_transport_bound (p : List Byte) : (loadPayload p s).transport_bound = s.transport_bound := rfl
@[simp] theorem loadPayload_diag_bound (p : List Byte) : (loadPayload p s).diag_bound = s.diag_bound := rfl
@[simp] theorem loadPayload_crc_acc (p : List Byte) : (loadPayload p s).crc_acc = s.crc_acc := rfl
@[simp] theorem loadPayload_call (p : List Byte) : (loadPayload p s).call = s.call := rfl
@[simp] theorem loadPayload_rx_state (p : List Byte) : (loadPayload p s).rx_state = s.rx_state := rfl
@[simp] theorem loadPayload_rx_buf (p : List Byte) : (loadPayload p s).rx_buf = s.rx_buf := rfl
@[simp] theorem loadPayload_rx_count (p : List Byte) : (loadPayload p s).rx_count = s.rx_count := rfl
@[simp] theorem loadPayload_rx_expected (p : List Byte) : (loadPayload p s).rx_expected = s.rx_expected := rfl
@[simp] theorem loadPayload_rx_len (p : List Byte) : (loadPayload p s).rx_len = s.rx_len := rfl
@[simp] theorem loadPayload_rx_deadline (p : List Byte) : (loadPayload p s).rx_deadline = s.rx_deadline := rfl
@[simp] theorem loadPayload_payload (p : List Byte) : (loadPayload p s).payload = p.take Config.plCap := rfl
@[simp] theorem loadPayload_slots (p : List Byte) : (loadPayload p s).slots = s.slots := rfl
@[simp] theorem loadPayload_rx_fifo (p : List Byte) : (loadPayload p s).rx_fifo = s.rx_fifo := rfl
@[simp] theorem loadPayload_tx_log (p : List Byte) : (loadPayload p s).tx_log = s.tx_log := rfl
@[simp] theorem loadPayload_diag_log (p : List Byte) : (loadPayload p s).diag_log = s.diag_log := rfl
@[simp] theorem loadPayload_refused (p : List Byte) : (loadPayload p s).refused = s.refused := rfl
@[simp] theorem loadPayload_fault (p : List Byte) : (loadPayload p s).fault = s.fault := rfl
@[simp] theorem loadPayload_now (p : List Byte) : (loadPayload p s).now = s.now := rfl
@[simp] theorem loadPayload_inputs (p : List Byte) : (loadPayload p s).inputs = s.inputs := rfl
@[simp] theorem loadPayload_responses (p : List Byte) : (loadPayload p s).responses = s.responses := rfl
@[simp] theorem loadPayload_tx_answers (p : List Byte) : (loadPayload p s).tx_answers = s.tx_answers := rfl
@[simp] theorem loadPayload_tx_draws (p : List Byte) : (loadPayload p s).tx_draws = s.tx_draws := rfl

/-! ## `writeSlots` -/

@[simp] theorem writeSlots_cfg_timeout (ws : List (Slot × SlotVal)) : (writeSlots ws s).cfg_timeout = s.cfg_timeout := rfl
@[simp] theorem writeSlots_cfg_ident (ws : List (Slot × SlotVal)) : (writeSlots ws s).cfg_ident = s.cfg_ident := rfl
@[simp] theorem writeSlots_cfg_crc_init (ws : List (Slot × SlotVal)) : (writeSlots ws s).cfg_crc_init = s.cfg_crc_init := rfl
@[simp] theorem writeSlots_cfg_req_sentinel (ws : List (Slot × SlotVal)) : (writeSlots ws s).cfg_req_sentinel = s.cfg_req_sentinel := rfl
@[simp] theorem writeSlots_cfg_optable (ws : List (Slot × SlotVal)) : (writeSlots ws s).cfg_optable = s.cfg_optable := rfl
@[simp] theorem writeSlots_configured (ws : List (Slot × SlotVal)) : (writeSlots ws s).configured = s.configured := rfl
@[simp] theorem writeSlots_transport_bound (ws : List (Slot × SlotVal)) : (writeSlots ws s).transport_bound = s.transport_bound := rfl
@[simp] theorem writeSlots_diag_bound (ws : List (Slot × SlotVal)) : (writeSlots ws s).diag_bound = s.diag_bound := rfl
@[simp] theorem writeSlots_crc_acc (ws : List (Slot × SlotVal)) : (writeSlots ws s).crc_acc = s.crc_acc := rfl
@[simp] theorem writeSlots_call (ws : List (Slot × SlotVal)) : (writeSlots ws s).call = s.call := rfl
@[simp] theorem writeSlots_rx_state (ws : List (Slot × SlotVal)) : (writeSlots ws s).rx_state = s.rx_state := rfl
@[simp] theorem writeSlots_rx_buf (ws : List (Slot × SlotVal)) : (writeSlots ws s).rx_buf = s.rx_buf := rfl
@[simp] theorem writeSlots_rx_count (ws : List (Slot × SlotVal)) : (writeSlots ws s).rx_count = s.rx_count := rfl
@[simp] theorem writeSlots_rx_expected (ws : List (Slot × SlotVal)) : (writeSlots ws s).rx_expected = s.rx_expected := rfl
@[simp] theorem writeSlots_rx_len (ws : List (Slot × SlotVal)) : (writeSlots ws s).rx_len = s.rx_len := rfl
@[simp] theorem writeSlots_rx_deadline (ws : List (Slot × SlotVal)) : (writeSlots ws s).rx_deadline = s.rx_deadline := rfl
@[simp] theorem writeSlots_payload (ws : List (Slot × SlotVal)) : (writeSlots ws s).payload = s.payload := rfl
@[simp] theorem writeSlots_slots (ws : List (Slot × SlotVal)) : (writeSlots ws s).slots = ws.foldl (fun m w => Cells.write m w.1.key w.2) s.slots := rfl
@[simp] theorem writeSlots_rx_fifo (ws : List (Slot × SlotVal)) : (writeSlots ws s).rx_fifo = s.rx_fifo := rfl
@[simp] theorem writeSlots_tx_log (ws : List (Slot × SlotVal)) : (writeSlots ws s).tx_log = s.tx_log := rfl
@[simp] theorem writeSlots_diag_log (ws : List (Slot × SlotVal)) : (writeSlots ws s).diag_log = s.diag_log := rfl
@[simp] theorem writeSlots_refused (ws : List (Slot × SlotVal)) : (writeSlots ws s).refused = s.refused := rfl
@[simp] theorem writeSlots_fault (ws : List (Slot × SlotVal)) : (writeSlots ws s).fault = s.fault := rfl
@[simp] theorem writeSlots_now (ws : List (Slot × SlotVal)) : (writeSlots ws s).now = s.now := rfl
@[simp] theorem writeSlots_inputs (ws : List (Slot × SlotVal)) : (writeSlots ws s).inputs = s.inputs := rfl
@[simp] theorem writeSlots_responses (ws : List (Slot × SlotVal)) : (writeSlots ws s).responses = s.responses := rfl
@[simp] theorem writeSlots_tx_answers (ws : List (Slot × SlotVal)) : (writeSlots ws s).tx_answers = s.tx_answers := rfl
@[simp] theorem writeSlots_tx_draws (ws : List (Slot × SlotVal)) : (writeSlots ws s).tx_draws = s.tx_draws := rfl

/-! ## `transmit` -/

@[simp] theorem transmit_cfg_timeout (f : List Byte) : (transmit f s).cfg_timeout = s.cfg_timeout := rfl
@[simp] theorem transmit_cfg_ident (f : List Byte) : (transmit f s).cfg_ident = s.cfg_ident := rfl
@[simp] theorem transmit_cfg_crc_init (f : List Byte) : (transmit f s).cfg_crc_init = s.cfg_crc_init := rfl
@[simp] theorem transmit_cfg_req_sentinel (f : List Byte) : (transmit f s).cfg_req_sentinel = s.cfg_req_sentinel := rfl
@[simp] theorem transmit_cfg_optable (f : List Byte) : (transmit f s).cfg_optable = s.cfg_optable := rfl
@[simp] theorem transmit_configured (f : List Byte) : (transmit f s).configured = s.configured := rfl
@[simp] theorem transmit_transport_bound (f : List Byte) : (transmit f s).transport_bound = s.transport_bound := rfl
@[simp] theorem transmit_diag_bound (f : List Byte) : (transmit f s).diag_bound = s.diag_bound := rfl
@[simp] theorem transmit_crc_acc (f : List Byte) : (transmit f s).crc_acc = s.crc_acc := rfl
@[simp] theorem transmit_call (f : List Byte) : (transmit f s).call = s.call := rfl
@[simp] theorem transmit_rx_state (f : List Byte) : (transmit f s).rx_state = s.rx_state := rfl
@[simp] theorem transmit_rx_buf (f : List Byte) : (transmit f s).rx_buf = s.rx_buf := rfl
@[simp] theorem transmit_rx_count (f : List Byte) : (transmit f s).rx_count = s.rx_count := rfl
@[simp] theorem transmit_rx_expected (f : List Byte) : (transmit f s).rx_expected = s.rx_expected := rfl
@[simp] theorem transmit_rx_len (f : List Byte) : (transmit f s).rx_len = s.rx_len := rfl
@[simp] theorem transmit_rx_deadline (f : List Byte) : (transmit f s).rx_deadline = s.rx_deadline := rfl
@[simp] theorem transmit_payload (f : List Byte) : (transmit f s).payload = s.payload := rfl
@[simp] theorem transmit_slots (f : List Byte) : (transmit f s).slots = s.slots := rfl
@[simp] theorem transmit_rx_fifo (f : List Byte) : (transmit f s).rx_fifo = s.rx_fifo := rfl
@[simp] theorem transmit_tx_log (f : List Byte) : (transmit f s).tx_log = s.tx_log ++ f.take (drawTxAccept f.length s) := rfl
@[simp] theorem transmit_diag_log (f : List Byte) : (transmit f s).diag_log = s.diag_log := rfl
@[simp] theorem transmit_refused (f : List Byte) : (transmit f s).refused = s.refused := rfl
@[simp] theorem transmit_fault (f : List Byte) : (transmit f s).fault = s.fault := rfl
@[simp] theorem transmit_now (f : List Byte) : (transmit f s).now = s.now := rfl
@[simp] theorem transmit_inputs (f : List Byte) : (transmit f s).inputs = s.inputs := rfl
@[simp] theorem transmit_responses (f : List Byte) : (transmit f s).responses = s.responses := rfl
@[simp] theorem transmit_tx_answers (f : List Byte) : (transmit f s).tx_answers = s.tx_answers.tail := rfl
@[simp] theorem transmit_tx_draws (f : List Byte) : (transmit f s).tx_draws = s.tx_draws + 1 := rfl

end Sys2Proof.Machine
end

