-- ==== Sys2Proof/Laws/Ops.lean ====
section
/-!
SUPPORT. One lemma per shared operation of Machine/Ops.lean, saying once what it does.
-/

namespace Sys2Proof.Machine

variable {s t : State}

/-! ## Guards -/

theorem hostOp_ready {run : State} (hc : s.configured = true) (hn : s.call = .none) : hostOp s run = run := by
  simp [hostOp, hc, hn]

theorem hostOp_refused {run : State} (h : s.configured = false ∨ s.call ≠ .none) : hostOp s run = refuse s := by
  rcases h with h | h <;> simp [hostOp, h]

/-- A host operation runs, on a configured block with no call open, or is refused. -/
theorem hostOp_cases (s run : State) :
    (s.configured = true ∧ s.call = .none ∧ hostOp s run = run) ∨ hostOp s run = refuse s := by
  by_cases h : s.configured = true ∧ s.call = .none
  · exact .inl ⟨h.1, h.2, hostOp_ready h.1 h.2⟩
  · exact .inr (by simp [hostOp, h])

/-- The receiver takes bytes by a rule exactly in an open call, outside AwaitLongLength. -/
theorem rxContext_eq_none_iff : rxContext s = none ↔ s.call = .none ∨ s.rx_state = .awaitLongLength := by
  cases hc : s.call <;> cases hr : s.rx_state <;> simp [rxContext, hc, hr] <;> split <;> simp

theorem rxContext_start_iff : rxContext s = some .start ↔ s.call ≠ .none ∧ s.rx_state = .awaitStart := by
  cases hc : s.call <;> cases hr : s.rx_state <;> simp [rxContext, hc, hr] <;> split <;> simp

theorem rxContext_length_iff : rxContext s = some .length ↔ s.call ≠ .none ∧ s.rx_state = .awaitShortLength := by
  cases hc : s.call <;> cases hr : s.rx_state <;> simp [rxContext, hc, hr] <;> split <;> simp

theorem rxContext_middle_iff :
    rxContext s = some .middle ↔ s.call ≠ .none ∧ s.rx_state = .accumulating ∧ s.rx_count + 1 ≠ s.rx_expected := by
  cases hc : s.call <;> cases hr : s.rx_state <;> simp [rxContext, hc, hr]

theorem rxContext_last_iff :
    rxContext s = some .last ↔ s.call ≠ .none ∧ s.rx_state = .accumulating ∧ s.rx_count + 1 = s.rx_expected := by
  cases hc : s.call <;> cases hr : s.rx_state <;> simp [rxContext, hc, hr]

/-- The byte of the row a byte selects is that byte. -/
@[simp] theorem decodeRx_byte (c : RxContext) (b : Byte) : (decodeRx c b).byte = b := by
  cases c with
  | start => unfold decodeRx; dsimp only; split_ifs with h2 h3 <;> simp_all [RxRow.byte]
  | length => rfl
  | middle => rfl
  | last => unfold decodeRx; dsimp only; split_ifs with h3 <;> simp_all [RxRow.byte]

/-- A byte selects a row of the context it is met in. -/
theorem decodeRx_context (c : RxContext) (b : Byte) : (decodeRx c b).context = c := by
  cases c with
  | start => unfold decodeRx; dsimp only; split_ifs <;> rfl
  | length => rfl
  | middle => rfl
  | last => unfold decodeRx; dsimp only; split_ifs <;> rfl

/-- A row is selected where its byte decodes to it. -/
theorem rxSelects_iff (r : RxRow) : rxSelects s r = true ↔ ∃ c, rxContext s = some c ∧ decodeRx c r.byte = r := by
  cases h : rxContext s <;> simp [rxSelects, h]

/-- The row a byte selects runs. -/
theorem rxRow_decodeRx {c : RxContext} (hc : rxContext s = some c) (b : Byte) (run : Result) :
    rxRow (decodeRx c b) s run = run := by
  have : rxSelects s (decodeRx c b) = true := (rxSelects_iff _).mpr ⟨c, hc, by rw [decodeRx_byte]⟩
  simp [rxRow, this]

/-- A row whose byte selects it where the receiver is runs. -/
theorem rxRow_selected {c : RxContext} (hc : rxContext s = some c) (r : RxRow) (hr : decodeRx c r.byte = r) (run : Result) :
    rxRow r s run = run := by
  have := rxRow_decodeRx hc r.byte run
  rwa [hr] at this

/-- A receiver row runs where it is selected, or is no input of the block. -/
theorem rxRow_cases (r : RxRow) (s : State) (run : Result) :
    (∃ c, rxContext s = some c ∧ decodeRx c r.byte = r ∧ rxRow r s run = run) ∨ rxRow r s run = .next (refuse s) := by
  by_cases h : rxSelects s r = true
  · obtain ⟨c, hc, hr⟩ := (rxSelects_iff r).mp h
    exact .inl ⟨c, hc, hr, by simp [rxRow, h]⟩
  · exact .inr (by simp [rxRow, h])

theorem withRoom_room {run : Result} (h : s.rx_count < 260) : withRoom s run = run := by
  simp [withRoom, h]

/-! ## Ending a call -/

/-- What a call answers when an outcome other than OK ends it. -/
def failResponse (o : OutcomeCode) (c : Call) : Response :=
  match c with
  | .request => .decoded o none
  | .receive | .none => .received o 0 []

/-- Raising an outcome in an open call closes it and answers. -/
theorem failCall_open (o : OutcomeCode) (h : s.call ≠ .none) :
    failCall o s = respond (failResponse o s.call) (closeCall s) := by
  cases hc : s.call <;> simp_all [failCall, failResponse]

/-- Raising an outcome closes the call, answers at most once, and changes nothing else. -/
theorem failCall_cases (o : OutcomeCode) (s : State) :
    failCall o s = closeCall s ∨ ∃ r, failCall o s = respond r (closeCall s) := by
  cases hc : s.call with
  | none => exact .inl (by simp [failCall, hc])
  | receive => exact .inr ⟨_, by simp only [failCall, hc]; rfl⟩
  | request => exact .inr ⟨_, by simp only [failCall, hc]; rfl⟩

/-! ## The transport write -/

/-- The transport takes at most what it is offered (42_frame_transmitter.md R193). -/
theorem drawTxAccept_le (n : Nat) (s : State) : drawTxAccept n s ≤ n := by
  unfold drawTxAccept; split <;> exact Nat.min_le_right _ _

theorem drawTxAccept_cons {k : Nat} {ks : List Nat} (n : Nat) (h : s.tx_answers = k :: ks) :
    drawTxAccept n s = min k n := by
  simp [drawTxAccept, h]

/-! ## The receive buffer -/

theorem rxRead_of_read {i : Nat} {b : Byte} (h : Cells.read s.rx_buf i = some b) : rxRead s i = b := by
  simp [rxRead, h]

@[simp] theorem rxSlice_length (s : State) (i n : Nat) : (rxSlice s i n).length = n := by simp [rxSlice]

theorem rxStore_wf (i : Nat) (b : Byte) (h : Memory.wf s.rx_buf) : Memory.wf (rxStore i b s).rx_buf :=
  Cells.wf_write _ _ _ h

theorem rxAppend_wf (b : Byte) (h : Memory.wf s.rx_buf) : Memory.wf (rxAppend b s).rx_buf :=
  Cells.wf_write _ _ _ h

/-! ## The payload buffer -/

/-- The payload buffer never holds more than its capacity (00_scope.md R16). -/
theorem loadPayload_capacity (p : List Byte) (s : State) : (loadPayload p s).payload.length ≤ Config.plCap := by
  simp [loadPayload]

/-- A payload of at most `PL_MAX` bytes fits the payload buffer whole (00_scope.md R16). -/
theorem loadPayload_of_fits {p : List Byte} (h : p.length ≤ 255) (s : State) : loadPayload p s = { s with payload := p } := by
  simp only [loadPayload]
  rw [List.take_of_length_le (Nat.le_succ_of_le h)]

/-! ## Record slots -/

theorem foldl_write_wf (ws : List (Slot × SlotVal)) (m : Cells SlotVal) (h : Cells.wf m) :
    Cells.wf (ws.foldl (fun m w => Cells.write m w.1.key w.2) m) := by
  induction ws generalizing m with
  | nil => exact h
  | cons w ws ih => exact ih _ (Cells.wf_write _ _ _ h)

theorem writeSlots_wf (ws : List (Slot × SlotVal)) (h : Cells.wf s.slots) : Cells.wf (writeSlots ws s).slots :=
  foldl_write_wf ws _ h

/-- A cell of the slots after slot writes is a written one or one of before. -/
theorem mem_writeSlots (ws : List (Slot × SlotVal)) (m : Cells SlotVal) (c : Nat × SlotVal)
    (h : c ∈ ws.foldl (fun m w => Cells.write m w.1.key w.2) m) :
    (∃ w ∈ ws, c = (w.1.key, w.2)) ∨ c ∈ m := by
  induction ws generalizing m with
  | nil => exact .inr h
  | cons w ws ih =>
    rcases ih _ h with ⟨w', hw', rfl⟩ | h
    · exact .inl ⟨w', List.mem_cons_of_mem _ hw', rfl⟩
    · rcases Cells.mem_write _ _ _ _ h with rfl | h
      · exact .inl ⟨w, List.mem_cons_self, rfl⟩
      · exact .inr h

/-- A slot that is not written keeps its value. -/
theorem readSlot_writeSlots_other (ws : List (Slot × SlotVal)) (s : State) (sl : Slot) (h : ∀ w ∈ ws, w.1 ≠ sl) :
    readSlot (writeSlots ws s) sl = readSlot s sl := by
  simp only [readSlot, writeSlots_slots]
  induction ws generalizing s with
  | nil => rfl
  | cons w ws ih =>
    have hk : sl.key ≠ w.1.key := fun e => h w List.mem_cons_self (Slot.key_injective e.symm)
    have := ih (writeSlots [w] s) (fun w' hw' => h w' (List.mem_cons_of_mem _ hw'))
    simp only [writeSlots_slots, List.foldl_cons, List.foldl_nil] at this
    rw [List.foldl_cons, this, Cells.read_write_other _ _ _ _ hk]

/-- A slot that is written once holds what is written. -/
theorem readSlot_writeSlots_mem (ws : List (Slot × SlotVal)) (s : State) (hd : (ws.map Prod.fst).Nodup)
    (w : Slot × SlotVal) (hw : w ∈ ws) : readSlot (writeSlots ws s) w.1 = some w.2 := by
  induction ws generalizing s with
  | nil => simp at hw
  | cons v ws ih =>
    have hstep : writeSlots (v :: ws) s = writeSlots ws (writeSlots [v] s) := rfl
    have hnd := List.nodup_cons.mp (by simpa using hd : (v.1 :: ws.map Prod.fst).Nodup)
    rcases List.mem_cons.mp hw with rfl | hw
    · rw [hstep, readSlot_writeSlots_other ws _ _
        (fun w' hw' e => hnd.1 (List.mem_map.mpr ⟨w', hw', e⟩))]
      simp [readSlot]
    · rw [hstep]; exact ih _ hnd.2 hw

end Sys2Proof.Machine
end

