-- ==== Sys2Proof/Laws/Codec.lean ====
section
/-!
SUPPORT. What the end of a decode can do, said once (`Decoded`), and that every row of a payload does one of it.
-/

namespace Sys2Proof.Machine

variable {s t : State}

/-- What a decode, or one of its rows, can do to the state: reject the payload; commit an arm's fields; or, for a row that the
payload does not select, be refused. -/
inductive Decoded (s : State) : State → Prop
  | rejected (o : OutcomeCode) (detail : Byte) (op : Option Byte) (ho : o ≠ .ok) :
      Decoded s (rejectDecode o detail op s)
  | committed (a : Arm) (op : Byte) (ha : s.cfg_optable.arm op = some a) (hw : 2 + a.width ≤ s.payload.length) :
      Decoded s (respond (.decoded .ok (some op)) (writeSlots (fieldWrites a.fields s.payload 2) s))
  | refused : Decoded s (refuse s)

theorem isTelemetry_iff (a : Arm) :
    a.isTelemetry = true ↔ a.record = telemetryArm.record ∧ a.fields = telemetryArm.fields := by
  simp [Arm.isTelemetry]

theorem runArm_short {a : Arm} {op : Byte} (h : s.payload.length < 2 + a.width) :
    runArm a op s = rejectDecode .truncated op (some op) s := by
  simp [runArm, h]

theorem runArm_long {a : Arm} {op : Byte} (h : 2 + a.width ≤ s.payload.length) :
    runArm a op s = respond (.decoded .ok (some op)) (writeSlots (fieldWrites a.fields s.payload 2) s) := by
  simp [runArm, Nat.not_lt.mpr h]

/-- An arm's decode depends on its fields only. -/
theorem runArm_congr {a b : Arm} (h : a.fields = b.fields) (op : Byte) (s : State) : runArm a op s = runArm b op s := by
  unfold runArm Arm.width; rw [h]

theorem runArm_decoded {a : Arm} {op : Byte} (ha : s.cfg_optable.arm op = some a) : Decoded s (runArm a op s) := by
  rcases Nat.lt_or_ge s.payload.length (2 + a.width) with h | h
  · rw [runArm_short h]; exact .rejected _ _ _ (by decide)
  · rw [runArm_long h]; exact .committed a op ha h

theorem execOpUnknown_decoded (op : Byte) (s : State) : ∃ t, execOpUnknown op s = .next t ∧ Decoded s t := by
  refine ⟨_, rfl, ?_⟩
  split
  · exact .rejected _ _ _ (by decide)
  · exact .refused

theorem execOpArm_decoded (op : Byte) (s : State) : ∃ t, execOpArm op s = .next t ∧ Decoded s t := by
  refine ⟨_, rfl, ?_⟩
  split
  · split
    · exact runArm_decoded ‹_›
    · exact .refused
  · exact .refused

theorem execOpRequestTelemetry_decoded (s : State) : ∃ t, execOpRequestTelemetry s = .next t ∧ Decoded s t := by
  refine ⟨_, rfl, ?_⟩
  split
  · rename_i h
    obtain ⟨a, ha, hf⟩ : ∃ a, s.cfg_optable.arm telemetryOpcode = some a ∧ a.isTelemetry = true := by
      cases hc : s.cfg_optable.arm telemetryOpcode <;> simp_all
    rw [← runArm_congr ((isTelemetry_iff a).mp hf).2]
    exact runArm_decoded ha
  · exact .refused

theorem runOpRow_decoded (r : OpRow) (s : State) : ∃ t, runOpRow r s = .next t ∧ Decoded s t := by
  cases r with
  | requestTelemetry => exact execOpRequestTelemetry_decoded s
  | arm op => exact execOpArm_decoded op s
  | unknown op => exact execOpUnknown_decoded op s

theorem execIdentOk_decoded (s : State) : ∃ t, execIdentOk s = .next t ∧ Decoded s t := by
  unfold execIdentOk
  split
  · split
    · exact runOpRow_decoded _ _
    · exact ⟨_, rfl, .rejected _ _ _ (by decide)⟩
  · exact ⟨_, rfl, .refused⟩

theorem execIdentMismatch_decoded (b : Byte) (s : State) : ∃ t, execIdentMismatch b s = .next t ∧ Decoded s t := by
  refine ⟨_, rfl, ?_⟩
  split
  · exact .rejected _ _ _ (by decide)
  · exact .refused

/-- A decode answers a next state, and does one of `Decoded`'s three. -/
theorem decodeCore_decoded (s : State) : ∃ t, decodeCore s = .next t ∧ Decoded s t := by
  unfold decodeCore
  split
  · exact ⟨_, rfl, .rejected _ _ _ (by decide)⟩
  · unfold runIdentRow
    split
    · exact execIdentOk_decoded s
    · exact execIdentMismatch_decoded _ s

/-- DECODE is refused, finds its payload too long, or decodes it. -/
theorem execDecode_cases (p : List Byte) (s : State) :
    execDecode p s = .next (refuse s) ∨
    (s.configured = true ∧ s.call = .none ∧ 255 < p.length ∧
      execDecode p s = .next (respond (.decoded .payloadTooLong none) s)) ∨
    (s.configured = true ∧ s.call = .none ∧ p.length ≤ 255 ∧
      ∃ t, execDecode p s = .next t ∧ Decoded (loadPayload p s) t) := by
  unfold execDecode
  by_cases h : s.configured = true ∧ s.call = .none
  · simp only [h, and_self, if_true]
    rcases Nat.lt_or_ge 255 p.length with hl | hl
    · exact .inr (.inl ⟨trivial, trivial, hl, by simp [hl]⟩)
    · refine .inr (.inr ⟨trivial, trivial, hl, ?_⟩)
      simp only [Config.plMax, Nat.not_lt.mpr hl, if_false]
      exact decodeCore_decoded _
  · simp [h]

/-- A row's field writes write the slots of its fields, in order. -/
theorem fieldWrites_slots (fs : List Field) (p : List Byte) (i : Nat) :
    (fieldWrites fs p i).map Prod.fst = fs.map Field.slot := by
  induction fs generalizing i with
  | nil => rfl
  | cons f fs ih => simp [fieldWrites, ih]

@[simp] theorem Raw.ofNat_width (k : Kind) (n : Nat) : (Raw.ofNat k.width n).width = k.width := by
  cases k <;> rfl

/-- A field write comes from a field, with its slot, its kind, and a raw word of the kind's width. -/
theorem mem_fieldWrites {fs : List Field} {p : List Byte} {i : Nat} {w : Slot × SlotVal} (h : w ∈ fieldWrites fs p i) :
    ∃ f ∈ fs, f.slot = w.1 ∧ f.kind = w.2.kind ∧ w.2.raw.width = w.2.kind.width := by
  induction fs generalizing i with
  | nil => simp [fieldWrites] at h
  | cons f fs ih =>
    rcases List.mem_cons.mp h with rfl | h
    · exact ⟨f, List.mem_cons_self, rfl, rfl, by simp [getField]⟩
    · obtain ⟨g, hg, rest⟩ := ih h
      exact ⟨g, List.mem_cons_of_mem _ hg, rest⟩

/-- `decode_core` as 43_command_codec.md R220 writes it: its tests in order, on the payload buffer, with no call open. -/
theorem decodeCore_eq (h : s.call = .none) :
    decodeCore s = .next (match s.payload with
      | [] => rejectDecode .truncated 0 none s
      | b :: rest =>
        if b ≠ s.cfg_ident then rejectDecode .identifierMismatch b none s
        else
          match rest with
          | [] => rejectDecode .truncated 0 none s
          | op :: _ =>
            match s.cfg_optable.arm op with
            | none => rejectDecode .unknownOpcode op (some op) s
            | some a => runArm a op s) := by
  unfold decodeCore
  cases hp : s.payload with
  | nil => rfl
  | cons b rest =>
    simp only [List.getElem?_cons_zero, decodeIdent]
    by_cases hb : b = s.cfg_ident
    · subst hb
      simp only [if_true, ne_eq, not_true, if_false, runIdentRow, execIdentOk, atIdent, hp, h,
        List.getElem?_cons_zero, decide_true, Bool.and_true]
      cases rest with
      | nil => rfl
      | cons op r =>
        simp only [List.getElem?_cons_succ, List.getElem?_cons_zero]
        unfold decodeOp
        cases ha : s.cfg_optable.arm op with
        | none => simp [runOpRow, execOpUnknown, atOpcode, hp, h, ha]
        | some a =>
          dsimp only
          by_cases ht : op = telemetryOpcode ∧ a.isTelemetry = true
          · rw [if_pos ht]
            obtain ⟨rfl, ht⟩ := ht
            simp only [runOpRow, execOpRequestTelemetry, atOpcode, hp, h, ha]
            simp [ht]
            rw [← runArm_congr ((isTelemetry_iff a).mp ht).2]
          · rw [if_neg ht]
            simp [runOpRow, execOpArm, atOpcode, hp, h, ha]
    · simp [hb, h, runIdentRow, execIdentMismatch, atIdent, hp]

/-- The write of field `j` is made from the bytes at its own offset. -/
theorem fieldWrites_getElem (fs : List Field) (p : List Byte) (i j : Nat) (f : Field) (h : fs[j]? = some f) :
    (f.slot, ⟨f.kind, getField f.kind p (i + ((fs.take j).map (fun g => g.kind.width)).sum)⟩) ∈ fieldWrites fs p i := by
  induction fs generalizing i j with
  | nil => simp at h
  | cons g gs ih =>
    cases j with
    | zero => simp at h; subst h; simp [fieldWrites]
    | succ j =>
      simp only [fieldWrites, List.take_succ_cons, List.map_cons, List.sum_cons, ← Nat.add_assoc]
      exact List.mem_cons_of_mem _ (ih (i + g.kind.width) j (by simpa using h))

/-- Bytes after the fields do not change their writes. -/
theorem fieldWrites_append (fs : List Field) (p q : List Byte) (i : Nat)
    (h : i + (fs.map (fun f => f.kind.width)).sum ≤ p.length) : fieldWrites fs (p ++ q) i = fieldWrites fs p i := by
  induction fs generalizing i with
  | nil => rfl
  | cons f fs ih =>
    simp only [List.map_cons, List.sum_cons] at h
    simp only [fieldWrites]
    rw [getField_append _ _ _ _ (by omega), ih _ (by omega)]

end Sys2Proof.Machine
end

