-- ==== Sys2Proof/Laws/Decode.lean ====
section
/-!
SUPPORT. Laws of the decoder's operand readers: each reads back what the encoder writes.
-/

namespace Sys2Proof

theorem withByte_toNat (b : Byte) (k : Byte → Except Reject Instr) : withByte b.toNat k = k b := by
  have : b.toNat < 256 := b.isLt
  simp [withByte, this]

theorem withWord16_toNat (v : Word16) (k : Word16 → Except Reject Instr) : withWord16 v.toNat k = k v := by
  have : v.toNat < 65536 := v.isLt
  simp [withWord16, this]

theorem checked_of_wellFormed {i : Instr} (h : i.wellFormed = true) : checked i = .ok i := by simp [checked, h]

/-- What `checked` answers is well-formed. -/
theorem checked_ok {i j : Instr} (h : checked i = .ok j) : j = i ∧ i.wellFormed = true := by
  unfold checked at h
  split at h
  · exact ⟨(Except.ok.inj h).symm, ‹_›⟩
  · cases h

/-- The opcodes of a canonical map are distinct. -/
theorem Cells.keys_nodup {α : Type} {m : Cells α} (h : Cells.wf m) : (m.map Prod.fst).Nodup := by
  rw [List.Nodup, List.pairwise_map]
  exact h.imp fun hlt => Nat.ne_of_lt hlt

/-- A table operand in canonical form is read back as it is. -/
theorem withTable_of_isMap {t : OpTable} (h : t.isMap = true) (k : OpTable → Except Reject Instr) : withTable t k = k t := by
  simp only [OpTable.isMap, Bool.and_eq_true, decide_eq_true_eq] at h
  have hn : (List.map Prod.fst t).Nodup := Cells.keys_nodup h.1
  simp [withTable, h.2, hn, Cells.ofList_of_wf t h.1]

/-- The byte of a number below 256 has that number. -/
theorem ofNat_toNat_of_lt {n : Nat} (h : n < 256) : (BitVec.ofNat 8 n).toNat = n := by
  simp [Nat.mod_eq_of_lt h]

/-- A cell of the map after writing rows into it is one of the rows or one of before. -/
theorem Cells.mem_foldl_write {α : Type} (rows m : List (Nat × α)) (c : Nat × α)
    (h : c ∈ rows.foldl (fun m r => Cells.write m r.1 r.2) m) : c ∈ rows ∨ c ∈ m := by
  induction rows generalizing m with
  | nil => exact .inr h
  | cons r rest ih =>
    rcases ih _ h with h | h
    · exact .inl (List.mem_cons_of_mem _ h)
    · rcases Cells.mem_write _ _ _ _ h with rfl | h
      · exact .inl List.mem_cons_self
      · exact .inr h

/-- The cells of the map of a list of rows are rows. -/
theorem Cells.mem_ofList {α : Type} (rows : List (Nat × α)) (c : Nat × α) (h : c ∈ Cells.ofList rows) : c ∈ rows :=
  (Cells.mem_foldl_write rows [] c h).resolve_right (by simp)

/-- A table operand that is read is a finite map from bytes. -/
theorem isMap_ofList {rows : List (Nat × Arm)} (h : rows.all (fun r => decide (r.1 < 256)) = true) :
    OpTable.isMap (Cells.ofList rows) = true := by
  simp only [OpTable.isMap, Bool.and_eq_true, decide_eq_true_eq, List.all_eq_true] at h ⊢
  exact ⟨Cells.wf_ofList rows, fun c hc => h c (Cells.mem_ofList rows c hc)⟩

end Sys2Proof
end

