-- ==== Sys2Proof/Laws/Receiver.lean ====
section
/-!
SUPPORT. What a byte taken by the receiver can do, said once (`RxEffect`), and what a POLL can do.
-/

namespace Sys2Proof.Machine

variable {s t : State}

/-- The state after the terminator's append and the FRAME_ACCEPTED event, closed, with the payload in its buffer. -/
abbrev acceptedState (p : List Byte) (s : State) : State :=
  loadPayload p (closeCall (emit (.frameAccepted s.rx_len) (rxAppend 0x03 s)))

/-- What a receiver row can do, by the context it runs in. -/
inductive RxEffect (s : State) : Result → Prop
  | refused : RxEffect s (.next (refuse s))
  | startShort (h : rxContext s = some .start) :
      RxEffect s (.next { rxStore 0 0x02 s with rx_count := 1, rx_state := .awaitShortLength })
  | startLong (h : rxContext s = some .start) :
      RxEffect s (.next (failCall .unsupportedLongFrame (emit (.frameRejected .unsupportedLongFrame 0x03) s)))
  | startOther (b : Byte) (h : rxContext s = some .start) : RxEffect s (.next (emit (.malformedStart b) s))
  | length (b : Byte) (h : rxContext s = some .length) :
      RxEffect s (.next
        { rxStore 1 b s with rx_count := 2, rx_len := b, rx_expected := b.toNat + 5, rx_state := .accumulating })
  | noRoom (h : 260 ≤ s.rx_count) : RxEffect s (.fault .rxBufIndex)
  | appended (b : Byte) (c : RxContext) (h : rxContext s = some c) (hc : c = .middle ∨ c = .last)
      (hr : s.rx_count + 1 < 260) : RxEffect s (.next (rxAppend b s))
  | overflowed (b : Byte) (c : RxContext) (h : rxContext s = some c) (hc : c = .middle ∨ c = .last)
      (hr : s.rx_count + 1 = 260) :
      RxEffect s (.next (failCall .bufferOverflow (emit (.frameRejected .bufferOverflow 0) (rxAppend b s))))
  | mismatch (computed received : Word16) (h : rxContext s = some .last) (hr : s.rx_count < 260) :
      RxEffect s (.next (failCall .checksumMismatch
        (emit (.checksumMismatch computed received) (rxAppend 0x03 s))))
  | received (p : List Byte) (h : rxContext s = some .last) (hr : s.rx_count < 260) (hp : p.length = s.rx_len.toNat)
      (hc : s.call = .receive) :
      RxEffect s (.next (respond (.received .ok p.length p) (acceptedState p s)))
  | decoded (p : List Byte) (t : State) (h : rxContext s = some .last) (hr : s.rx_count < 260)
      (hp : p.length = s.rx_len.toNat) (hc : s.call = .request) (ht : Decoded (acceptedState p s) t) :
      RxEffect s (.next t)

/-- After an append that completes nothing: 41_frame_receiver.md R159, R160. -/
theorem keepOrOverflow_rxAppend (b : Byte) (s : State) :
    keepOrOverflow (rxAppend b s) =
      if s.rx_count + 1 = 260 then failCall .bufferOverflow (emit (.frameRejected .bufferOverflow 0) (rxAppend b s))
      else rxAppend b s := rfl

/-- The integrity check with the received checksum as the word of its two bytes: 41_frame_receiver.md R162. -/
theorem integrityCheck_eq (s : State) :
    integrityCheck s =
      if checksum s.cfg_crc_init (rxSlice s 2 s.rx_len.toNat) =
          rxRead s (s.rx_len.toNat + 2) ++ rxRead s (s.rx_len.toNat + 2 + 1) then
        acceptFrame (rxSlice s 2 s.rx_len.toNat) (emit (.frameAccepted s.rx_len) s)
      else
        .next (failCall .checksumMismatch (emit (.checksumMismatch (checksum s.cfg_crc_init (rxSlice s 2 s.rx_len.toNat))
          (rxRead s (s.rx_len.toNat + 2) ++ rxRead s (s.rx_len.toNat + 2 + 1))) s)) := by
  have h : rxSlice s (s.rx_len.toNat + 2) 2 = [rxRead s (s.rx_len.toNat + 2), rxRead s (s.rx_len.toNat + 2 + 1)] := rfl
  unfold integrityCheck
  rw [h]
  simp only [memRead_pair]

theorem appendRow_effect (b : Byte) {c : RxContext} (h : rxContext s = some c) (hc : c = .middle ∨ c = .last) :
    RxEffect s (withRoom s (.next (keepOrOverflow (rxAppend b s)))) := by
  rcases Nat.lt_or_ge s.rx_count 260 with hr | hr
  · rw [withRoom_room hr]
    rcases Nat.lt_or_ge (s.rx_count + 1) 260 with h1 | h1
    · have : keepOrOverflow (rxAppend b s) = rxAppend b s := by
        simp [keepOrOverflow]; omega
      rw [this]; exact .appended b c h hc h1
    · have h2 : s.rx_count + 1 = 260 := by omega
      have : keepOrOverflow (rxAppend b s) =
          failCall .bufferOverflow (emit (.frameRejected .bufferOverflow 0) (rxAppend b s)) := by
        simp only [keepOrOverflow, rxAppend_rx_count, Config.rxBufCap, h2, if_true]
      rw [this]; exact .overflowed b c h hc h2
  · have : withRoom s (.next (keepOrOverflow (rxAppend b s))) = .fault .rxBufIndex := by
      simp [withRoom, Nat.not_lt.mpr hr]
    rw [this]; exact .noRoom hr

theorem terminatorRow_effect (h : rxContext s = some .last) :
    RxEffect s (withRoom s (integrityCheck (rxAppend Config.terminator s))) := by
  rcases Nat.lt_or_ge s.rx_count 260 with hr | hr
  · rw [withRoom_room hr]
    unfold integrityCheck
    dsimp only
    split
    · obtain ⟨hcall, -, -⟩ := rxContext_last_iff.mp h
      unfold acceptFrame
      cases hc : s.call with
      | none => exact absurd hc hcall
      | receive =>
        simp only [emit_call, rxAppend_call, hc, rxAppend_rx_len]
        exact .received _ h hr (by simp) hc
      | request =>
        simp only [emit_call, rxAppend_call, hc, rxAppend_rx_len]
        obtain ⟨t, ht, hd⟩ := decodeCore_decoded
          (acceptedState (rxSlice (rxAppend Config.terminator s) 2 s.rx_len.toNat) s)
        erw [ht]
        exact .decoded _ t h hr (by simp) hc hd
    · exact .mismatch _ _ h hr
  · have : withRoom s (integrityCheck (rxAppend Config.terminator s)) = .fault .rxBufIndex := by
      simp [withRoom, Nat.not_lt.mpr hr]
    rw [this]; exact .noRoom hr

/-- Every receiver row does one of `RxEffect`'s. -/
theorem runRxRow_effect (r : RxRow) (s : State) : RxEffect s (runRxRow r s) := by
  have key : ∀ (r : RxRow) (run : Result), (rxContext s = some r.context → RxEffect s run) →
      RxEffect s (rxRow r s run) := by
    intro r run hrun
    rcases rxRow_cases r s run with ⟨c, hc, hd, he⟩ | he
    · rw [he]
      have : r.context = c := by rw [← hd]; exact decodeRx_context c _
      exact hrun (this ▸ hc)
    · rw [he]; exact .refused
  cases r with
  | startShort => exact key _ _ .startShort
  | startLong => exact key _ _ .startLong
  | startOther b => exact key _ _ (.startOther b)
  | length b => exact key _ _ (.length b)
  | data b => exact key _ _ fun h => appendRow_effect b h (.inl rfl)
  | terminator => exact key _ _ terminatorRow_effect
  | notTerminator b => exact key _ _ fun h => appendRow_effect b h (.inr rfl)

/-- What a POLL can do: nothing; end the call with TIMEOUT; or take the head of the receive queue, whose row then runs. -/
theorem execPoll_cases (time : Nat) (s : State) :
    execPoll time s = .next s ∨
    (s.call ≠ .none ∧ s.rx_deadline ≤ time ∧ execPoll time s = .next (failCall .timeout s)) ∨
    (s.call ≠ .none ∧ s.rx_state = .awaitLongLength ∧ execPoll time s = .fault .noTransition) ∨
    (∃ b rest c, s.call ≠ .none ∧ time < s.rx_deadline ∧ s.rx_fifo = b :: rest ∧ rxContext s = some c ∧
      execPoll time s = runRxRow (decodeRx c b) (setFifo rest s)) := by
  unfold execPoll
  split
  · exact .inl rfl
  · rename_i hcall
    split
    · exact .inr (.inl ⟨hcall, ‹_›, rfl⟩)
    · rename_i hd
      split
      · exact .inl rfl
      · rename_i b rest hf
        unfold takeByte
        cases hctx : rxContext s with
        | none =>
          have := (rxContext_eq_none_iff.mp hctx).resolve_left hcall
          exact .inr (.inr (.inl ⟨hcall, this, rfl⟩))
        | some c => exact .inr (.inr (.inr ⟨b, rest, c, hcall, Nat.lt_of_not_le hd, hf, rfl, rfl⟩))

/-- The context of the receiver does not depend on the receive queue. -/
@[simp] theorem rxContext_setFifo (f : List Byte) (s : State) : rxContext (setFifo f s) = rxContext s := rfl

end Sys2Proof.Machine
end

