-- ==== Sys2Proof/Laws/Fetch.lean ====
section
/-!
SUPPORT. What a step does, by what is pending.
-/

namespace Sys2Proof.Machine

variable {s : State}

theorem step_idle (h : s.inputs = []) : step s = .next s := by simp [step, pending, h]

/-- The state in which the instruction of the oldest line runs: the line is taken, at its time. -/
abbrev lineTaken (l : HostLine) (rest : List HostLine) (s : State) : State := { s with inputs := rest, now := l.now }

theorem step_run {l : HostLine} {rest : List HostLine} {i : Instr} (h : s.inputs = l :: rest) (ht : s.now ≤ l.now)
    (hd : decodeLine l = .ok i) : step s = exec i (lineTaken l rest s) := by
  simp [step, pending, h, Nat.not_lt.mpr ht, hd]

/-- What a step can do: nothing; take a line that is no input of the block; or run the oldest line's instruction. -/
theorem step_cases (s : State) :
    (s.inputs = [] ∧ step s = .next s) ∨
    (∃ l rest, s.inputs = l :: rest ∧ l.now < s.now ∧ step s = .next (refuse { s with inputs := rest })) ∨
    (∃ l rest r, s.inputs = l :: rest ∧ s.now ≤ l.now ∧ decodeLine l = .error r ∧
      step s = .next (refuse (lineTaken l rest s))) ∨
    (∃ l rest i, s.inputs = l :: rest ∧ s.now ≤ l.now ∧ decodeLine l = .ok i ∧ step s = exec i (lineTaken l rest s)) := by
  cases hi : s.inputs with
  | nil => exact .inl ⟨rfl, step_idle hi⟩
  | cons l rest =>
    rcases Nat.lt_or_ge l.now s.now with ht | ht
    · exact .inr (.inl ⟨l, rest, rfl, ht, by simp [step, pending, hi, ht]⟩)
    · cases hd : decodeLine l with
      | error r => exact .inr (.inr (.inl ⟨l, rest, r, rfl, ht, hd, by simp [step, pending, hi, Nat.not_lt.mpr ht, hd]⟩))
      | ok i => exact .inr (.inr (.inr ⟨l, rest, i, rfl, ht, hd, step_run hi ht hd⟩))

end Sys2Proof.Machine
end

