-- ==== Sys2Proof/Laws/PerInstr.lean ====
section
/-!
SUPPORT. Statements made instruction by instruction. `Written`: a row of the host or of the environment is written as a line that
carries its name and its time, and a wire row as no line.
-/

namespace Sys2Proof.Laws.Written

/-- The line of an instruction carries the instruction's name; the rows of the wire have none. -/
def Statement (i : Instr) : Prop :=
  ∀ now : Nat, match encodeLine now i with
    | some l => l.name = i.mnemonic ∧ i.mnemonic.format ≠ .wireByte
    | none => i.mnemonic.format = .wireByte

theorem configure (t : Nat) (id : Byte) (c : Word16) (r : Byte) (o : OpTable) : Statement (.configure t id c r o) :=
  fun _ => ⟨rfl, nofun⟩
theorem bindTransport : Statement .bindTransport := fun _ => ⟨rfl, nofun⟩
theorem bindDiag : Statement .bindDiag := fun _ => ⟨rfl, nofun⟩
theorem crcClear : Statement .crcClear := fun _ => ⟨rfl, nofun⟩
theorem crcFeed (b : Byte) : Statement (.crcFeed b) := fun _ => ⟨rfl, nofun⟩
theorem crcRead : Statement .crcRead := fun _ => ⟨rfl, nofun⟩
theorem crcCompute (s : List Byte) : Statement (.crcCompute s) := fun _ => ⟨rfl, nofun⟩
theorem txSend (p : List Byte) : Statement (.txSend p) := fun _ => ⟨rfl, nofun⟩
theorem rxReceive : Statement .rxReceive := fun _ => ⟨rfl, nofun⟩
theorem decode (p : List Byte) : Statement (.decode p) := fun _ => ⟨rfl, nofun⟩
theorem encRequest (op : Byte) : Statement (.encRequest op) := fun _ => ⟨rfl, nofun⟩
theorem encFields (op : Byte) (vs : List (Kind × FieldIn)) : Statement (.encFields op vs) := fun _ => ⟨rfl, nofun⟩
theorem request (op : Byte) : Statement (.request op) := fun _ => ⟨rfl, nofun⟩
theorem readField (r : Record) (s : Slot) : Statement (.readField r s) := fun _ => ⟨rfl, nofun⟩
theorem poll (t : Nat) : Statement (.poll t) := fun _ => ⟨rfl, nofun⟩
theorem arrive (b : Byte) : Statement (.arrive b) := fun _ => ⟨rfl, nofun⟩
theorem startShort : Statement .startShort := fun _ => rfl
theorem startLong : Statement .startLong := fun _ => rfl
theorem startOther (b : Byte) : Statement (.startOther b) := fun _ => rfl
theorem length (b : Byte) : Statement (.length b) := fun _ => rfl
theorem data (b : Byte) : Statement (.data b) := fun _ => rfl
theorem terminator : Statement .terminator := fun _ => rfl
theorem notTerminator (b : Byte) : Statement (.notTerminator b) := fun _ => rfl
theorem identOk : Statement .identOk := fun _ => rfl
theorem identMismatch (b : Byte) : Statement (.identMismatch b) := fun _ => rfl
theorem opRequestTelemetry : Statement .opRequestTelemetry := fun _ => rfl
theorem opArm (op : Byte) : Statement (.opArm op) := fun _ => rfl
theorem opUnknown (op : Byte) : Statement (.opUnknown op) := fun _ => rfl

end Sys2Proof.Laws.Written
end

