-- ==== Sys2Proof/Laws/Session.lean ====
section
/-!
SUPPORT. What CONFIGURE asks of its operands.
-/

namespace Sys2Proof.Machine

/-- CONFIGURE takes an admitted initial value with a well-formed table (44_session_ops.md R250). -/
theorem configurable_iff (c : Word16) (t : OpTable) :
    configurable c t = true ↔ (c = 0xFFFF ∨ c = 0x0000) ∧ t.isMap = true ∧ t.wellFormed = true := by
  simp [configurable, fixedParametersAdmitted, Config.longFrameSupport, Config.payloadOrder, crcInitAdmitted, and_assoc]

end Sys2Proof.Machine
end

