-- ==== Sys2Proof/Tests/Slice0.lean ====
section
/-!
SUPPORT. The model's own tests: ill-formed terms the check refuses; lines and bytes written out from the spec's encodings; single
steps against the spec's own examples and vectors (95_test_vectors.md); and for every statement with hypotheses a state and
operands that meet them.
-/

namespace Sys2Proof.Tests

open Sys2Proof.Machine Sys2Proof.Claims

/-! ## Small states -/

/-- The block of 44_session_ops.md R250's example: CONFIGURE 100, 0x66, 0xFFFF, 0x24, default-table. -/
def base : State := { State.reset with configured := true, cfg_timeout := 100, cfg_req_sentinel := 0x24 }

/-- `base` with its transport bound. -/
def bound : State := { base with transport_bound := true }

/-- An open call of this kind, with this receiver state and these registers, its deadline at 100 and these bytes waiting. -/
def inCall (c : Call) (r : RxState) (count expected : Nat) (len : Byte) (fifo : List Byte) : State :=
  { bound with call := c, rx_state := r, rx_count := count, rx_expected := expected, rx_len := len, rx_deadline := 100,
               rx_fifo := fifo }

/-- A call in AwaitStart with these bytes waiting. -/
def waiting (fifo : List Byte) : State := inCall .receive .awaitStart 0 0 0 fifo

/-- The call before the last byte of the frame 02 03 66 01 00 c_hi c_lo 03 (30_encoding.md R90). -/
def almost (c : Call) (hi lo : Byte) : State :=
  { inCall c .accumulating 7 8 3 [] with
    rx_buf := [(0, 0x02), (1, 0x03), (2, 0x66), (3, 0x01), (4, 0x00), (5, hi), (6, lo)] }

/-- No call, this payload in the payload buffer. -/
def loaded (p : List Byte) : State := { base with payload := p }

/-- The state a result answers, if it answers one. -/
def answered (r : Result) : Option State :=
  match r with
  | .next s => some s
  | .fault _ => none
  | .refused _ => none

/-- The fault a result stops with, if it does. -/
def stopped (r : Result) : Option Fault :=
  match r with
  | .next _ => none
  | .fault f => some f
  | .refused _ => none

/-- An arm of `n` U32 fields in added slots and one field of kind `k`: its width is `4 * n + k.width`. -/
def wideArm (n : Nat) (k : Kind) : Arm :=
  ⟨"Wide", .settings, ⟨k, .lightMode⟩ :: (List.range n).map (fun i => ⟨.u32, .added .settings i⟩)⟩

/-! ## WellFormed: each check refuses an ill-formed term -/

theorem test_wf_table_unsorted : (Instr.configure 0 0x66 0xFFFF 0 [(2, telemetryArm), (1, telemetryArm)]).wellFormed = false := by
  decide
theorem test_wf_table_duplicate : (Instr.configure 0 0x66 0xFFFF 0 [(1, telemetryArm), (1, telemetryArm)]).wellFormed = false := by
  decide
theorem test_wf_table_key : (Instr.configure 0 0x66 0xFFFF 0 [(256, telemetryArm)]).wellFormed = false := by decide
theorem test_wf_enc_bool : (Instr.encFields 5 [(.u8, .bool true)]).wellFormed = false := by decide
theorem test_wf_enc_raw_bool8 : (Instr.encFields 5 [(.bool8, .raw (.w8 1))]).wellFormed = false := by decide
theorem test_wf_enc_width : (Instr.encFields 5 [(.u16, .raw (.w8 1))]).wellFormed = false := by decide
theorem test_wf_enc_divisor : (Instr.encFields 5 [(.fix16 0, .raw (.w16 1))]).wellFormed = false := by decide
theorem test_wf_read_record : (Instr.readField .settings .switchState).wellFormed = false := by decide
theorem test_wf_read_added : (Instr.readField .telemetry (.added .settings 0)).wellFormed = false := by decide
theorem test_wf_start_short : (Instr.startOther 0x02).wellFormed = false := by decide
theorem test_wf_start_long : (Instr.startOther 0x03).wellFormed = false := by decide
theorem test_wf_terminator : (Instr.notTerminator 0x03).wellFormed = false := by decide

/-- 43_command_codec.md R212: a table that fails check 1, 2, 3, 4 or 5, and one at check 5's bound. -/
theorem test_wf_optable :
    OpTable.wellFormed [(1, ⟨"a", .telemetry, [⟨.u8, .lightMode⟩]⟩)] = false ∧
    OpTable.wellFormed [(1, ⟨"a", .telemetry, [⟨.u8, .rpm⟩, ⟨.u8, .rpm⟩]⟩)] = false ∧
    OpTable.wellFormed [(1, ⟨"a", .telemetry, [⟨.u8, .rpm⟩]⟩), (2, ⟨"b", .telemetry, [⟨.u16, .rpm⟩]⟩)] = false ∧
    OpTable.wellFormed [(1, ⟨"a", .telemetry, [⟨.fix16 0, .rpm⟩]⟩)] = false ∧
    OpTable.wellFormed [(1, wideArm 63 .u16)] = false ∧
    OpTable.wellFormed [(1, wideArm 63 .u8)] = true ∧
    OpTable.wellFormed defaultTable = true := by decide +kernel

/-! ## Decoding: lines and bytes as the spec writes them -/

/-- 00_scope.md section 4, 44_session_ops.md, 43_command_codec.md: one line of every operation of the host. -/
theorem test_decode_lines :
    decode (.line ⟨0, .configure, [.num 100, .num 0x66, .num 0xFFFF, .num 0x24, .table [(1, telemetryArm)]]⟩) =
      .ok (.configure 100 0x66 0xFFFF 0x24 defaultTable) ∧
    decode (.line ⟨0, .bindTransport, []⟩) = .ok .bindTransport ∧
    decode (.line ⟨0, .bindDiag, []⟩) = .ok .bindDiag ∧
    decode (.line ⟨0, .crcClear, []⟩) = .ok .crcClear ∧
    decode (.line ⟨0, .crcFeed, [.num 0x66]⟩) = .ok (.crcFeed 0x66) ∧
    decode (.line ⟨0, .crcRead, []⟩) = .ok .crcRead ∧
    decode (.line ⟨0, .crcCompute, [.bytes [0x66, 0x01, 0x00]]⟩) = .ok (.crcCompute [0x66, 0x01, 0x00]) ∧
    decode (.line ⟨0, .txSend, [.bytes [0x24]]⟩) = .ok (.txSend [0x24]) ∧
    decode (.line ⟨0, .rxReceive, []⟩) = .ok .rxReceive ∧
    decode (.line ⟨0, .decode, [.bytes [0x66]]⟩) = .ok (.decode [0x66]) ∧
    decode (.line ⟨0, .encRequest, [.num 1]⟩) = .ok (.encRequest 1) ∧
    decode (.line ⟨0, .encFields, [.num 5, .values [(.bool8, .bool true)]]⟩) = .ok (.encFields 5 [(.bool8, .bool true)]) ∧
    decode (.line ⟨0, .request, [.num 1]⟩) = .ok (.request 1) ∧
    decode (.line ⟨0, .readField, [.record .telemetry, .slot .switchState]⟩) = .ok (.readField .telemetry .switchState) ∧
    decode (.line ⟨7, .poll, []⟩) = .ok (.poll 7) ∧
    decode (.line ⟨0, .arrive, [.num 0xAA]⟩) = .ok (.arrive 0xAA) := by
  refine ⟨?_, ?_, ?_, ?_, ?_, ?_, ?_, ?_, ?_, ?_, ?_, ?_, ?_, ?_, ?_, ?_⟩ <;> rfl

/-- Every rejection of a line, by name. -/
theorem test_reject_lines :
    decode (.line ⟨0, .terminator, []⟩) = .error .wireRow ∧
    decode (.line ⟨0, .crcFeed, []⟩) = .error .operandShape ∧
    decode (.line ⟨0, .crcFeed, [.num 256]⟩) = .error .operandRange ∧
    decode (.line ⟨0, .configure, [.num 0, .num 0x66, .num 65536, .num 0, .table []]⟩) = .error .operandRange ∧
    decode (.line ⟨0, .configure, [.num 0, .num 0x66, .num 0, .num 0, .table [(1, telemetryArm), (1, telemetryArm)]]⟩) =
      .error .notAMap ∧
    decode (.line ⟨0, .readField, [.record .settings, .slot .switchState]⟩) = .error .illFormed := by
  refine ⟨?_, ?_, ?_, ?_, ?_, ?_⟩ <;> rfl

/-- 30_encoding.md R110: the selector map's bytes, 00000010 and 00000011 and others, bit by bit. -/
theorem test_decode_wire :
    decodeWire (.rx .start) 0b00000010 = .startShort ∧
    decodeWire (.rx .start) 0b00000011 = .startLong ∧
    decodeWire (.rx .start) 0b10101010 = .startOther 0xAA ∧
    decodeWire (.rx .length) 0b00000010 = .length 0x02 ∧
    decodeWire (.rx .middle) 0b00000011 = .data 0x03 ∧
    decodeWire (.rx .last) 0b00000011 = .terminator ∧
    decodeWire (.rx .last) 0b00000010 = .notTerminator 0x02 ∧
    decodeWire (.ident 0x66) 0b01100110 = .identOk ∧
    decodeWire (.ident 0x66) 0b01100101 = .identMismatch 0x65 ∧
    decodeWire (.opcode defaultTable) 0b00000001 = .opRequestTelemetry ∧
    decodeWire (.opcode [(0x42, wideArm 0 .u8)]) 0b01000010 = .opArm 0x42 ∧
    decodeWire (.opcode defaultTable) 0b00000000 = .opUnknown 0x00 := by decide

/-- spec/opcode_table.json: the fixed bytes, and widths that are none of the table's. -/
theorem test_decode_table_word :
    decodeTableWord 8 0x02 = some .startShort ∧ decodeTableWord 8 0x03 = some .startLong ∧
    decodeTableWord 8 0x01 = some .opRequestTelemetry ∧ decodeTableWord 8 0x00 = some (.startOther 0x00) ∧
    decodeTableWord 16 0x02 = none ∧ decodeTableWord 8 256 = none := by decide

/-! ## The next step after reset runs a table word -/

theorem test_fetch_start_short :
    (answered (step (State.reset.withFetchWord 8 0x02))).map (fun t => (t.rx_state, t.rx_count)) =
      some (.awaitShortLength, 1) := by decide
theorem test_fetch_start_long :
    (answered (step (State.reset.withFetchWord 8 0x03))).map (fun t => (t.call, t.responses)) =
      some (.none, [.received .unsupportedLongFrame 0 []]) := by decide
theorem test_fetch_start_other :
    (answered (step (State.reset.withFetchWord 8 0x00))).map (fun t => (t.rx_state, t.rx_fifo)) =
      some (.awaitStart, []) := by decide
theorem test_fetch_request_telemetry :
    (answered (step (State.reset.withFetchWord 8 0x01))).map (fun t => (readSlot t .switchState, t.responses)) =
      some (some ⟨.u8, .w8 0x00⟩, [.decoded .ok (some 0x01)]) := by decide

/-! ## Single steps against the spec's examples -/

/-- 44_session_ops.md R250. -/
theorem test_configure :
    (answered (exec (.configure 100 0x66 0xFFFF 0x24 defaultTable) State.reset)).map
      (fun t => (t.responses, t.crc_acc, t.configured, t.cfg_timeout, t.cfg_req_sentinel)) =
      some ([.done], 0xFFFF, true, 100, 0x24) := by decide
/-- 60_exceptions.md R300: a crc_init that is neither 0xFFFF nor 0x0000. -/
theorem test_configure_refused :
    (answered (exec (.configure 100 0x66 0x0001 0x24 defaultTable) State.reset)).map
      (fun t => (t.refused, t.configured, t.responses)) = some (true, false, []) := by decide
/-- 44_session_ops.md R252. -/
theorem test_bind_transport :
    (answered (exec .bindTransport base)).map (fun t => (t.transport_bound, t.responses)) = some (true, [.done]) := by decide
/-- 44_session_ops.md R254. -/
theorem test_bind_diag :
    (answered (exec .bindDiag base)).map (fun t => (t.diag_bound, t.transport_bound)) = some (true, false) := by decide
/-- 40_checksum.md R135. -/
theorem test_crc_clear :
    (answered (exec .crcClear { base with crc_acc := 0x1234 })).map (fun t => t.crc_acc) = some 0xFFFF := by decide
/-- 40_checksum.md R136. -/
theorem test_crc_feed : (answered (exec (.crcFeed 0x66) base)).map (fun t => t.crc_acc) = some 0xED90 := by decide +kernel
/-- 40_checksum.md R137: the accumulator after 0x66, 0x01, 0x00. -/
theorem test_crc_read :
    (answered (execAll [.crcClear, .crcFeed 0x66, .crcFeed 0x01, .crcFeed 0x00, .crcRead] base)).map
      (fun t => t.responses.getLast?) = some (some (.crc 0xD666)) := by decide +kernel
/-- 40_checksum.md R138, under the alternative initial value. -/
theorem test_crc_compute :
    (answered (exec (.crcCompute [0x66, 0x01, 0x00]) { base with cfg_crc_init := 0x0000 })).map (fun t => t.responses) =
      some [.crc 0x1AFA] := by decide +kernel
/-- 40_checksum.md R143. -/
theorem test_crc_check_value :
    checksum 0xFFFF [0x31, 0x32, 0x33, 0x34, 0x35, 0x36, 0x37, 0x38, 0x39] = 0x29B1 := by decide +kernel
/-- 42_frame_transmitter.md R193, and a transport that takes three bytes. -/
theorem test_tx_send :
    (answered (exec (.txSend [0x24, 0x66, 0x01]) { bound with tx_answers := [8] })).map (fun t => (t.tx_log, t.responses)) =
      some ([0x02, 0x03, 0x24, 0x66, 0x01, 0x27, 0x37, 0x03], [.sent .ok 8]) ∧
    (answered (exec (.txSend [0x24, 0x66, 0x01]) { bound with tx_answers := [3] })).map (fun t => (t.tx_log, t.responses)) =
      some ([0x02, 0x03, 0x24], [.sent .ok 3]) := by decide +kernel
/-- 42_frame_transmitter.md R192: 256 bytes. -/
theorem test_tx_send_too_long :
    (answered (exec (.txSend (List.replicate 256 0)) bound)).map (fun t => (t.tx_log, t.responses)) =
      some ([], [.sent .payloadTooLong 0]) := by decide +kernel
/-- 41_frame_receiver.md R150. -/
theorem test_rx_receive :
    (answered (exec .rxReceive { bound with now := 1000 })).map (fun t => (t.call, t.rx_deadline, t.responses)) =
      some (.receive, 1100, []) := by decide
/-- 43_command_codec.md R220 and R224. -/
theorem test_decode :
    (answered (exec (.decode [0x66, 0x01, 0x00]) base)).map (fun t => (readSlot t .switchState, t.responses)) =
      some (some ⟨.u8, .w8 0x00⟩, [.decoded .ok (some 0x01)]) ∧
    (answered (exec (.decode [0x66, 0x01]) base)).map (fun t => (t.slots, t.responses)) =
      some ([], [.decoded .truncated (some 0x01)]) := by decide
/-- 60_exceptions.md R293: a 1-byte payload with a wrong identifier, one with the right one, and an empty one. -/
theorem test_decode_order :
    (answered (exec (.decode [0x65]) base)).map (fun t => t.responses) = some [.decoded .identifierMismatch none] ∧
    (answered (exec (.decode [0x66]) base)).map (fun t => t.responses) = some [.decoded .truncated none] ∧
    (answered (exec (.decode []) base)).map (fun t => t.responses) = some [.decoded .truncated none] := by decide
/-- 43_command_codec.md R230. -/
theorem test_enc_request :
    (answered (exec (.encRequest 0x01) base)).map (fun t => t.responses) =
      some [.encoded .ok (some [0x24, 0x66, 0x01])] := by decide
/-- 43_command_codec.md R232, and a field of four bytes (20_memory.md R72). -/
theorem test_enc_fields :
    (answered (exec (.encFields 0x05 [(.bool8, .bool true), (.u32, .raw (.w32 0x01020304))]) base)).map
      (fun t => t.responses) =
      some [.encoded .ok (some [0x24, 0x66, 0x05, 0x01, 0x01, 0x02, 0x03, 0x04])] := by decide
/-- 44_session_ops.md R256. -/
theorem test_request :
    (answered (exec (.request 0x01) { bound with tx_answers := [8] })).map (fun t => (t.tx_log, t.call, t.rx_deadline)) =
      some ([0x02, 0x03, 0x24, 0x66, 0x01, 0x27, 0x37, 0x03], .request, 100) := by decide +kernel
/-- 44_session_ops.md R258. -/
theorem test_read_field :
    (answered (exec (.readField .telemetry .switchState) { base with slots := [(4, ⟨.u8, .w8 0x00⟩)] })).map
      (fun t => t.responses) = some [.field .u8 (.w8 0x00) (.int 0)] ∧
    (answered (exec (.readField .telemetry .switchState) base)).map (fun t => (t.fault, t.responses)) = some (true, []) := by
  decide
/-- 43_command_codec.md R216, R217, R219. -/
theorem test_field_values :
    fieldValue .i8 (.w8 0xFF) = .int (-1) ∧ fieldValue .i16 (.w16 0x8000) = .int (-32768) ∧
    fieldValue .i32 (.w32 0x7FFFFFFF) = .int 2147483647 ∧ fieldValue (.fix16 10) (.w16 0xFF38) = .rat (-20) ∧
    fieldValue .bool8 (.w8 0x80) = .bool true := by decide +kernel
/-- 41_frame_receiver.md R152, R166: the deadline first, and the byte stays. -/
theorem test_poll_timeout :
    (answered (exec (.poll 100) (waiting [0x02]))).map (fun t => (t.responses, t.rx_fifo, t.call)) =
      some ([.received .timeout 0 []], [0x02], .none) := by decide
/-- 41_frame_receiver.md R157: one byte is taken. -/
theorem test_poll_takes_one_byte :
    (answered (exec (.poll 99) (waiting [0x03, 0x01, 0x00]))).map (fun t => (t.responses, t.rx_fifo)) =
      some ([.received .unsupportedLongFrame 0 []], [0x01, 0x00]) := by decide
/-- 10_state.md R53. -/
theorem test_arrive : (answered (exec (.arrive 0xAA) (waiting [0x02]))).map (fun t => t.rx_fifo) = some [0x02, 0xAA] := by decide
/-- 41_frame_receiver.md R155. -/
theorem test_start_short :
    (answered (exec .startShort (waiting []))).map (fun t => (t.rx_buf, t.rx_count, t.rx_state)) =
      some ([(0, 0x02)], 1, .awaitShortLength) := by decide
/-- 41_frame_receiver.md R157, with diagnostics bound. -/
theorem test_start_long :
    (answered (exec .startLong { waiting [] with diag_bound := true })).map (fun t => (t.diag_log, t.rx_state)) =
      some ([.frameRejected .unsupportedLongFrame 0x03], .awaitStart) := by decide
/-- 41_frame_receiver.md R154; 44_session_ops.md R254. -/
theorem test_start_other :
    (answered (exec (.startOther 0xAA) { waiting [] with diag_bound := true })).map (fun t => (t.diag_log, t.rx_count)) =
      some ([.malformedStart 0xAA], 0) := by decide
/-- 41_frame_receiver.md R156. -/
theorem test_length :
    (answered (exec (.length 0x03) (inCall .receive .awaitShortLength 1 0 0 []))).map
      (fun t => (t.rx_expected, t.rx_len, t.rx_count, t.rx_state)) = some (8, 0x03, 2, .accumulating) := by decide
/-- 41_frame_receiver.md R158, R159. -/
theorem test_data :
    (answered (exec (.data 0x03) (inCall .receive .accumulating 2 8 3 []))).map (fun t => (t.rx_buf, t.rx_count)) =
      some ([(2, 0x03)], 3) ∧
    (answered (exec (.data 0x03) (inCall .receive .accumulating 259 8 3 []))).map (fun t => (t.responses, t.rx_count)) =
      some ([.received .bufferOverflow 0 []], 260) := by decide
/-- 41_frame_receiver.md R162, R163: the frame 02 03 66 01 00 D6 66 03, and one with a wrong checksum. -/
theorem test_terminator :
    (answered (exec .terminator (almost .receive 0xD6 0x66))).map (fun t => (t.responses, t.call)) =
      some ([.received .ok 3 [0x66, 0x01, 0x00]], .none) ∧
    (answered (exec .terminator (almost .receive 0x1A 0xFA))).map (fun t => t.responses) =
      some [.received .checksumMismatch 0 []] := by decide +kernel
/-- 44_session_ops.md R257: the same frame in a Request call. -/
theorem test_terminator_request :
    (answered (exec .terminator (almost .request 0xD6 0x66))).map (fun t => (t.responses, readSlot t .switchState)) =
      some ([.decoded .ok (some 0x01)], some ⟨.u8, .w8 0x00⟩) := by decide +kernel
/-- 41_frame_receiver.md R160. -/
theorem test_not_terminator :
    (answered (exec (.notTerminator 0x04) (almost .receive 0xD6 0x66))).map (fun t => (t.call, t.rx_count, t.rx_state)) =
      some (.receive, 8, .accumulating) := by decide
/-- 43_command_codec.md R221. -/
theorem test_ident_ok :
    (answered (exec .identOk (loaded [0x66, 0x01, 0x01]))).map (fun t => readSlot t .switchState) =
      some (some ⟨.u8, .w8 0x01⟩) := by decide
theorem test_ident_mismatch :
    (answered (exec (.identMismatch 0x65) (loaded [0x65, 0x01, 0x00]))).map (fun t => (t.responses, t.slots)) =
      some ([.decoded .identifierMismatch none], []) := by decide
/-- 43_command_codec.md R213. -/
theorem test_op_request_telemetry :
    (answered (exec .opRequestTelemetry (loaded [0x66, 0x01, 0x7F]))).map (fun t => readSlot t .switchState) =
      some (some ⟨.u8, .w8 0x7F⟩) := by decide
/-- 43_command_codec.md R223: two fields, 16 bits and 8, and a trailing byte. -/
theorem test_op_arm :
    (answered (exec (.opArm 0x10)
      { loaded [0x66, 0x10, 0x12, 0x34, 0x56, 0x78] with
        cfg_optable := [(0x10, ⟨"T", .telemetry, [⟨.u16, .rpm⟩, ⟨.i8, .dutyCycle⟩]⟩)] })).map
      (fun t => (readSlot t .rpm, readSlot t .dutyCycle)) =
      some (some ⟨.u16, .w16 0x1234⟩, some ⟨.i8, .w8 0x56⟩) := by decide
/-- 43_command_codec.md R222. -/
theorem test_op_unknown :
    (answered (exec (.opUnknown 0x02) (loaded [0x66, 0x02, 0x00]))).map (fun t => t.responses) =
      some [.decoded .unknownOpcode (some 0x02)] := by decide
/-- 00_scope.md R16: a payload of 255 bytes fits the payload buffer whole, and the buffer holds no more than 256. -/
theorem test_payload_capacity :
    (loadPayload (List.replicate 255 0x66) base).payload = List.replicate 255 0x66 ∧
    (loadPayload (List.replicate 300 0x66) base).payload.length = 256 := by decide +kernel
/-- Log 17 and log 18: the two stops. -/
theorem test_stops :
    stopped (exec (.poll 0) (inCall .receive .awaitLongLength 1 0 0 [0x00])) = some .noTransition ∧
    stopped (exec (.data 0x00) (inCall .receive .accumulating 260 8 3 [])) = some .rxBufIndex := by decide
/-- 00_scope.md R21 (log 10) and 10_state.md R56 (log 6): time that runs back, and a line that is no operation. -/
theorem test_step_rejected :
    (answered (step { base with now := 5, inputs := [⟨4, .crcRead, []⟩] })).map (fun t => (t.refused, t.now, t.inputs)) =
      some (true, 5, []) ∧
    (answered (step { base with inputs := [⟨4, .terminator, []⟩] })).map (fun t => (t.refused, t.now)) =
      some (true, 4) := by decide

/-! ## Witnesses: for every statement with hypotheses, a state and operands that meet them, each clause at its bounds -/

theorem test_witness_ConfigureSetsEveryRegister :
    (State.reset.configured = false ∧ State.reset.call = .none ∧ ((0xFFFF : Word16) = 0xFFFF ∨ (0xFFFF : Word16) = 0x0000) ∧
      OpTable.isMap [(255, wideArm 63 .u8)] = true ∧ OpTable.wellFormed [(255, wideArm 63 .u8)] = true) ∧
    (base.configured = true ∧ ((0xFFFE : Word16) ≠ 0xFFFF ∧ (0xFFFE : Word16) ≠ 0x0000) ∧
      OpTable.wellFormed [(255, wideArm 63 .u16)] = false) := by decide +kernel

theorem test_witness_HostOperationOutOfTurnIsRefused :
    Instr.crcRead.mnemonic.format = .hostOp ∧ (waiting []).call ≠ .none ∧ State.reset.configured = false ∧
      Instr.crcRead.mnemonic ≠ .configure := by decide

theorem test_witness_CrcClearLoadsInitialValue : Ready base ∧ (waiting []).call ≠ .none := by decide
theorem test_witness_CrcFeedStepsAccumulator : Ready base ∧ (waiting []).call ≠ .none := by decide
theorem test_witness_CrcReadAnswersAccumulator : Ready base ∧ (waiting []).call ≠ .none := by decide
theorem test_witness_CrcComputeAnswersChecksum : Ready base ∧ (waiting []).call ≠ .none := by decide
theorem test_witness_CrcFedByteByByteEqualsWhole : Ready base := by decide
theorem test_witness_SingleBitFlipChangesChecksum : 2 < ([0x66, 0x01, 0x00] : List Byte).length ∧ 7 < 8 := by decide
theorem test_witness_PackBuildsShortFrame : (List.replicate 255 (0x03 : Byte)).length ≤ 255 := by decide +kernel

theorem test_witness_TxSendOffersWholeFrame :
    (Ready base ∧ base.transport_bound = false) ∧
    (Ready bound ∧ bound.transport_bound = true ∧ 255 < (List.replicate 256 (0 : Byte)).length) ∧
    (Ready bound ∧ (List.replicate 255 (0 : Byte)).length ≤ 255 ∧ ({ bound with tx_answers := [3] }).tx_answers = 3 :: []) ∧
    (waiting []).call ≠ .none := by decide +kernel

theorem test_witness_RxReceiveOpensCall :
    (Ready base ∧ base.transport_bound = false) ∧ (Ready bound ∧ bound.transport_bound = true) ∧
      (waiting []).call ≠ .none := by decide

theorem test_witness_PollTestsDeadlineThenTakesOneByte :
    base.call = .none ∧
    ((waiting [0x02]).call ≠ .none ∧ (waiting [0x02]).rx_deadline ≤ 100) ∧
    (99 < (waiting []).rx_deadline ∧ (waiting []).rx_fifo = []) ∧
    (99 < (waiting [0x02]).rx_deadline ∧ (waiting [0x02]).rx_fifo = 0x02 :: [] ∧ (waiting [0x02]).rx_state = .awaitStart) ∧
    (inCall .request .awaitShortLength 1 0 0 [0xFF]).rx_state = .awaitShortLength ∧
    ((inCall .request .accumulating 6 8 3 [0x03]).rx_state = .accumulating ∧
      (inCall .request .accumulating 6 8 3 [0x03]).rx_count + 1 ≠ (inCall .request .accumulating 6 8 3 [0x03]).rx_expected) ∧
    ((inCall .request .accumulating 7 8 3 [0x03]).rx_count + 1 = (inCall .request .accumulating 7 8 3 [0x03]).rx_expected) ∧
    (inCall .request .awaitLongLength 1 0 0 [0x00]).rx_state = .awaitLongLength := by decide

theorem test_witness_PollTakesByteAndMovesOn :
    ((waiting [0x02]).call ≠ .none ∧ 99 < (waiting [0x02]).rx_deadline ∧ (waiting [0x02]).rx_fifo = 0x02 :: [] ∧
      (waiting [0x02]).rx_state = .awaitStart) ∧
    ((0x04 : Byte) ≠ 0x02 ∧ (0x04 : Byte) ≠ 0x03) ∧
    ((inCall .receive .accumulating 258 260 255 [0x03]).rx_count + 1 < 260 ∧
      (inCall .receive .accumulating 258 260 255 [0x03]).rx_count + 1 ≠ 260) := by decide

theorem test_witness_StartByteRows :
    (waiting []).call ≠ .none ∧ (waiting []).rx_state = .awaitStart ∧ (0x01 : Byte) ≠ 0x02 ∧ (0x01 : Byte) ≠ 0x03 := by decide
theorem test_witness_LengthByteRow :
    (inCall .request .awaitShortLength 1 0 0 []).call ≠ .none ∧
      (inCall .request .awaitShortLength 1 0 0 []).rx_state = .awaitShortLength := by decide

theorem test_witness_AccumulatedByteRows :
    (inCall .receive .accumulating 259 8 3 []).call ≠ .none ∧ (inCall .receive .accumulating 259 8 3 []).rx_state = .accumulating ∧
    ((inCall .receive .accumulating 259 8 3 []).rx_count < 260 ∧ 259 + 1 ≠ (inCall .receive .accumulating 259 8 3 []).rx_expected) ∧
    ((inCall .receive .accumulating 259 260 255 []).rx_count + 1 = (inCall .receive .accumulating 259 260 255 []).rx_expected ∧
      (0x02 : Byte) ≠ 0x03) ∧
    (260 ≤ (inCall .receive .accumulating 260 8 3 []).rx_count ∧ 260 + 1 ≠ 8) := by decide

theorem test_witness_TerminatorRunsIntegrityCheck :
    ((almost .receive 0xD6 0x66).call = .receive ∧ (almost .receive 0xD6 0x66).rx_state = .accumulating ∧
      (almost .receive 0xD6 0x66).rx_count + 1 = (almost .receive 0xD6 0x66).rx_expected ∧
      (almost .receive 0xD6 0x66).rx_count < 260 ∧
      checksum 0xFFFF (framePayload (byteAppended 0x03 (almost .receive 0xD6 0x66))) =
        frameChecksum (byteAppended 0x03 (almost .receive 0xD6 0x66))) ∧
    checksum 0xFFFF (framePayload (byteAppended 0x03 (almost .receive 0x00 0x00))) ≠
      frameChecksum (byteAppended 0x03 (almost .receive 0x00 0x00)) := by decide +kernel

theorem test_witness_AcceptedFrameInRequestIsDecoded :
    (almost .request 0xD6 0x66).configured = true ∧ (almost .request 0xD6 0x66).call = .request ∧
      (almost .request 0xD6 0x66).rx_state = .accumulating ∧
      (almost .request 0xD6 0x66).rx_count + 1 = (almost .request 0xD6 0x66).rx_expected ∧
      (almost .request 0xD6 0x66).rx_count < 260 ∧
      checksum 0xFFFF (framePayload (byteAppended 0x03 (almost .request 0xD6 0x66))) =
        frameChecksum (byteAppended 0x03 (almost .request 0xD6 0x66)) := by decide +kernel

theorem test_witness_RxBufWrittenOnlyByReceiver :
    (∃ t, exec .startShort (waiting []) = .next t ∧ Instr.startShort.mnemonic ≠ .configure ∧ (1 : Nat) ≠ rxWriteIndex (waiting [])) ∧
    (∃ t, exec .crcRead base = .next t ∧
      Instr.crcRead.mnemonic ∉ [Mnemonic.poll, .startShort, .length, .data, .terminator, .notTerminator]) :=
  ⟨⟨_, rfl, by decide, by decide⟩, ⟨_, rfl, by decide⟩⟩

theorem test_witness_PackedFrameRoundTrips :
    Ready bound ∧ bound.transport_bound = true ∧ bound.rx_fifo = [] ∧ (List.replicate 255 (0x03 : Byte)).length ≤ 255 ∧
      (List.replicate 260 99).length = (List.replicate 255 (0x03 : Byte)).length + 5 ∧
      ∀ τ ∈ List.replicate 260 99, τ < bound.now + bound.cfg_timeout := by decide +kernel

theorem test_witness_CorruptedPayloadIsRejected :
    Ready bound ∧ bound.transport_bound = true ∧ bound.rx_fifo = [] ∧ ([0x66, 0x01, 0x00] : List Byte).length ≤ 255 ∧
      2 < ([0x66, 0x01, 0x00] : List Byte).length ∧ 7 < 8 ∧
      [0, 1, 2, 3, 4, 5, 6, 99].length = ([0x66, 0x01, 0x00] : List Byte).length + 5 ∧
      ∀ τ ∈ [0, 1, 2, 3, 4, 5, 6, 99], τ < bound.now + bound.cfg_timeout := by decide

theorem test_witness_DecodeRunsIdentifierRow :
    Ready base ∧ 255 < (List.replicate 256 (0 : Byte)).length ∧ (0x66 :: List.replicate 254 (0 : Byte)).length ≤ 255 := by
  decide +kernel
theorem test_witness_WrongIdentifierIsRejected :
    (0x65 : Byte) ≠ base.cfg_ident ∧ (loaded [0x65]).call = .none ∧ (loaded [0x65]).payload = 0x65 :: [] ∧ Ready base ∧
      (0x65 :: List.replicate 254 (0 : Byte)).length ≤ 255 := by decide +kernel
theorem test_witness_AcceptedIdentifierGoesOnToOpcode :
    (loaded [0x66]).call = .none ∧ (loaded [0x66]).payload = [(loaded [0x66]).cfg_ident] ∧
    (loaded [0x66, 0x02]).payload = (loaded [0x66, 0x02]).cfg_ident :: 0x02 :: [] ∧ base.cfg_optable.arm 0x02 = none ∧
    base.cfg_optable.arm 0x01 = some telemetryArm := by decide
theorem test_witness_UnknownOpcodeIsRejected :
    (loaded [0x66, 0x02]).call = .none ∧ (loaded [0x66, 0x02]).payload = (loaded [0x66, 0x02]).cfg_ident :: 0x02 :: [] ∧
      (loaded [0x66, 0x02]).cfg_optable.arm 0x02 = none := by decide
theorem test_witness_OpcodeArmTakesItsFields :
    (loaded [0x66, 0x01]).call = .none ∧ (loaded [0x66, 0x01]).payload = (loaded [0x66, 0x01]).cfg_ident :: 0x01 :: [] ∧
      (loaded [0x66, 0x01]).cfg_optable.arm 0x01 = some telemetryArm := by decide
theorem test_witness_DefaultTableDecodesSwitchState :
    (0x00 : Byte) ≠ 0x01 ∧ (loaded [0x66, 0x01]).call = .none ∧
      (loaded [0x66, 0x01]).cfg_optable.arm 0x01 = some telemetryArm ∧
      OpTable.arm [(0x01, ⟨"Other", .telemetry, [⟨.u8, .switchState⟩]⟩), (0x05, wideArm 0 .u8)] 0x01 =
        some ⟨"Other", .telemetry, [⟨.u8, .switchState⟩]⟩ ∧
      telemetryArm.record = .telemetry ∧ telemetryArm.fields = [⟨.u8, .switchState⟩] ∧
      (loaded [0x66, 0x01]).payload = [(loaded [0x66, 0x01]).cfg_ident, 0x01] ∧
      (loaded [0x66, 0x01, 0xFF]).payload = (loaded [0x66, 0x01, 0xFF]).cfg_ident :: 0x01 :: 0xFF :: [] := by decide
theorem test_witness_DecodeTestsInOrder : Ready base ∧ ([] : List Byte).length ≤ 255 ∧ (List.replicate 255 (0x66 : Byte)).length ≤ 255 := by
  decide +kernel
theorem test_witness_DecodeCommitsAllFieldsOrNone :
    Ready base ∧ base.cfg_optable.wellFormed = true ∧ (decodeOutcome base [0x66, 0x01, 0x00]).1 = .ok ∧
      (decodeOutcome base [0x66, 0x01]).1 ≠ .ok ∧ 255 < (List.replicate 256 (0x66 : Byte)).length ∧
      ([0x66, 0x01, 0x00] : List Byte).length ≤ 255 ∧ base.cfg_optable.arm 0x01 = some telemetryArm ∧
      telemetryArm.fields[0]? = some ⟨.u8, .switchState⟩ ∧ Slot.rpm ∉ telemetryArm.fields.map Field.slot := by decide +kernel
theorem test_witness_DecodeIsIdempotent :
    ∃ t u, Ready base ∧ exec (.decode [0x66, 0x01, 0x05]) base = .next t ∧ exec (.decode [0x66, 0x01, 0x05]) t = .next u :=
  ⟨_, _, by decide, rfl, rfl⟩
theorem test_witness_TrailingBytesAreIgnored :
    Ready base ∧ base.cfg_optable.arm 0x01 = some telemetryArm ∧
      ([0x07] : List Byte).length = (telemetryArm.fields.map (fun f => f.kind.width)).sum ∧
      2 + (([0x07] : List Byte) ++ List.replicate 252 0x00).length ≤ 255 := by decide +kernel
theorem test_witness_EncRequestBuildsThreeBytes : Ready base ∧ (waiting []).call ≠ .none := by decide
theorem test_witness_EncFieldsAppendsFields :
    Ready base ∧ [(Kind.bool8, FieldIn.bool true), (Kind.fix32 1, FieldIn.raw (.w32 0))].all fieldInOk = true ∧
      (List.replicate 253 (Kind.u8, FieldIn.raw (.w8 0))).all fieldInOk = true ∧ (waiting []).call ≠ .none := by decide +kernel
theorem test_witness_GetFieldInvertsPutField : Kind.f32auto ≠ .bool8 ∧ (Raw.w32 0xFFFFFFFF).width = Kind.f32auto.width := by decide
theorem test_witness_FieldBytesAreBigEndian : Kind.i8.width = 1 ∧ (Kind.fix16 1).width = 2 ∧ Kind.i32.width = 4 := by decide
theorem test_witness_FieldValuesByKind :
    (Raw.w8 0x80).width = Kind.i8.width ∧ (-128 : Int) = (if (Raw.w8 0x80).toNat < 2 ^ 7 then 128 else 128 - 2 ^ 8) ∧
      (Raw.w16 0x7FFF).width = (Kind.fix16 1).width ∧ 1 ≤ 1 ∧ (Raw.w32 0x80000000).width = (Kind.fix32 1).width ∧
      (Raw.w32 0xFFFFFFFF).width = Kind.f32auto.width := by decide
theorem test_witness_BindOperationsOnceEach :
    Ready base ∧ base.transport_bound = false ∧ base.diag_bound = false ∧ bound.transport_bound = true ∧
      ({ base with diag_bound := true }).diag_bound = true := by decide
theorem test_witness_RequestSendsFrameAndOpensCall :
    (Ready base ∧ base.transport_bound = false) ∧ (Ready bound ∧ bound.transport_bound = true) ∧ (waiting []).call ≠ .none ∧
      ({ bound with tx_answers := [9] }).tx_answers = 9 :: [] := by decide
theorem test_witness_ReadFieldAnswersOrMarksFault :
    (Ready { base with slots := [(4, ⟨.u8, .w8 0x00⟩)] } ∧
      readSlot { base with slots := [(4, ⟨.u8, .w8 0x00⟩)] } .switchState = some ⟨.u8, .w8 0x00⟩) ∧
    (Ready base ∧ readSlot base .switchState = none) ∧ (waiting []).call ≠ .none := by decide
theorem test_witness_SlotsChangeOnlyOnSuccessfulDecode :
    ∃ t, exec (.decode [0x66, 0x01, 0x00]) base = .next t ∧ (Instr.decode [0x66, 0x01, 0x00]).mnemonic ≠ .configure ∧
      t.slots ≠ base.slots := ⟨_, rfl, by decide, by decide⟩
theorem test_witness_DiagnosticsChangeNothingElse :
    (∀ l ∈ ({ base with inputs := [⟨0, .decode, [.bytes [0x65]]⟩] }).inputs, l.name ≠ .bindDiag) ∧
      SameButDiagnostics { base with inputs := [⟨0, .decode, [.bytes [0x65]]⟩], diag_bound := true }
        { base with inputs := [⟨0, .decode, [.bytes [0x65]]⟩] } := ⟨by decide, rfl⟩
theorem test_witness_ConfigurationIsNeverRewritten :
    ∃ t, exec (.configure 0 0x65 0x0000 0 []) base = .next t ∧ base.configured = true := ⟨_, rfl, rfl⟩
theorem test_witness_MarksAndBindingsAreNeverCleared :
    ∃ t, exec .crcRead { bound with refused := true, fault := true, diag_bound := true } = .next t ∧
      bound.transport_bound = true ∧ bound.configured = true ∧
      ∃ u, exec (.readField .settings .lightMode) base = .next u ∧ base.fault = false ∧ u.fault = true :=
  ⟨_, rfl, rfl, rfl, _, rfl, rfl, rfl⟩
theorem test_witness_AccumulatorWrittenOnlyByEngine :
    ∃ t, exec (.crcCompute [0x66]) { base with crc_acc := 0x1234 } = .next t ∧
      (Instr.crcCompute [0x66]).mnemonic ∉ [Mnemonic.crcClear, .crcFeed, .configure] := ⟨_, rfl, by decide⟩
theorem test_witness_TransmitLogGrowsOnlyBySends :
    ∃ t, exec (.txSend [0x24]) bound = .next t ∧ (Instr.txSend [0x24]).mnemonic ≠ .configure ∧
      Instr.crcRead.mnemonic ∉ [Mnemonic.txSend, .request] := ⟨_, rfl, by decide, by decide⟩
theorem test_witness_ReceiveQueueLosesOnlyItsHead :
    ∃ t, exec (.poll 99) (waiting [0x02, 0x03]) = .next t ∧ (Instr.poll 99).mnemonic ≠ .arrive := ⟨_, rfl, by decide⟩
theorem test_witness_TimeNeverDecreases : ∃ t, step { base with inputs := [⟨5, .crcRead, []⟩] } = .next t := ⟨_, rfl⟩
theorem test_witness_StepRunsDecodedLine :
    base.inputs = [] ∧
    (base.now ≤ (⟨0, .crcRead, []⟩ : HostLine).now ∧ decode (.line ⟨0, .crcRead, []⟩) = .ok .crcRead) ∧
    decode (.line ⟨0, .crcFeed, [.num 256]⟩) = .error .operandRange ∧
    (⟨4, .crcRead, []⟩ : HostLine).now < ({ base with now := 5 }).now := ⟨rfl, ⟨by decide, rfl⟩, rfl, by decide⟩
theorem test_witness_LineDecodesToEncodedInstruction :
    (Instr.encFields 0xFF [(.fix16 1, .raw (.w16 0))]).wellFormed = true ∧
      (Instr.encFields 0xFF [(.fix16 1, .raw (.w16 0))]).mnemonic.format ≠ .wireByte := by decide
theorem test_witness_DecodedLineIsWellFormed : decode (.line ⟨0, .arrive, [.num 255]⟩) = .ok (.arrive 0xFF) := rfl

/-- A call before the last byte of a frame, with a POLL pending, satisfies the invariant. -/
theorem test_witness_StepKeepsInvariant :
    Inv { almost .receive 0xD6 0x66 with inputs := [⟨0, .poll, []⟩] } ∧
      ∃ t, step { almost .receive 0xD6 0x66 with inputs := [⟨0, .poll, []⟩] } = .next t := by
  refine ⟨?_, _, rfl⟩
  constructor
  case receiver => intro _; refine ⟨?_, ?_, ?_, ?_, ?_, ?_⟩ <;> decide
  all_goals decide

theorem test_witness_InvariantStateNeverStops : Inv { almost .receive 0xD6 0x66 with inputs := [⟨0, .poll, []⟩] } :=
  test_witness_StepKeepsInvariant.1

end Sys2Proof.Tests
end

section
/-!
The proof of O52. The time is the environment's (00_scope.md R21): no instruction writes `now`; only the taking of a line does, and it
takes no line of the past.
-/

namespace Sys2Proof.Machine

variable {s t : State}

/-- If the result is a next state, its time is that of `s`. -/
def KeepsNow (s : State) : Result → Prop
  | .next t => t.now = s.now
  | _ => True

@[simp] theorem keepsNow_next : KeepsNow s (.next t) ↔ t.now = s.now := Iff.rfl

@[simp] theorem keepsNow_fault (f : Fault) : KeepsNow s (.fault f) := trivial

/-! ## The shared operations -/

/-- A host operation keeps the time if the run it guards does. -/
theorem hostOp_now {run : State} (h : run.now = s.now) : (hostOp s run).now = s.now := by
  rcases hostOp_cases s run with ⟨-, -, e⟩ | e
  · rw [e, h]
  · rw [e, refuse_now]

@[simp] theorem failCall_now (o : OutcomeCode) (s : State) : (failCall o s).now = s.now := by
  rcases failCall_cases o s with e | ⟨r, e⟩ <;> simp [e]

theorem Decoded.now (h : Decoded s t) : t.now = s.now := by
  cases h <;> simp [rejectDecode]

theorem keepsNow_of_decoded {r : Result} (h : ∃ t, r = .next t ∧ Decoded s t) : KeepsNow s r := by
  obtain ⟨t, rfl, hd⟩ := h
  exact hd.now

theorem RxEffect.keepsNow {r : Result} (h : RxEffect s r) : KeepsNow s r := by
  cases h with
  | decoded p t _ _ _ _ ht => simpa using ht.now
  | _ => simp

/-! ## The instructions with branches of their own -/

theorem execConfigure_keepsNow (timeout : Nat) (ident : Byte) (crcInit : Word16) (reqSentinel : Byte) (optable : OpTable)
    (s : State) : KeepsNow s (execConfigure timeout ident crcInit reqSentinel optable s) := by
  unfold execConfigure
  split
  · rfl
  · exact refuse_now s

theorem execDecode_keepsNow (p : List Byte) (s : State) : KeepsNow s (execDecode p s) := by
  rcases execDecode_cases p s with e | ⟨-, -, -, e⟩ | ⟨-, -, -, t, e, hd⟩
  · simp [e]
  · simp [e]
  · simpa [e] using hd.now

theorem execPoll_keepsNow (time : Nat) (s : State) : KeepsNow s (execPoll time s) := by
  rcases execPoll_cases time s with e | ⟨-, -, e⟩ | ⟨-, -, e⟩ | ⟨b, rest, c, -, -, -, -, e⟩
  · simp [e]
  · simp [e]
  · simp [e]
  · rw [e]
    exact (runRxRow_effect _ (setFifo rest s)).keepsNow

/-! ## Every instruction, and the step -/

/-- No instruction writes the time (00_scope.md R21). -/
theorem exec_keepsNow (i : Instr) (s : State) : KeepsNow s (exec i s) := by
  cases i with
  | configure timeout ident crcInit reqSentinel optable => exact execConfigure_keepsNow ..
  | bindTransport => exact hostOp_now (by split <;> rfl)
  | bindDiag => exact hostOp_now (by split <;> rfl)
  | crcClear => exact hostOp_now rfl
  | crcFeed b => exact hostOp_now rfl
  | crcRead => exact hostOp_now rfl
  | crcCompute bytes => exact hostOp_now rfl
  | txSend p => exact hostOp_now (by split_ifs <;> rfl)
  | rxReceive => exact hostOp_now (by split <;> rfl)
  | decode p => exact execDecode_keepsNow p s
  | encRequest op => exact hostOp_now rfl
  | encFields op vs => exact hostOp_now (by dsimp only; split_ifs <;> rfl)
  | request op => exact hostOp_now (by split <;> rfl)
  | readField record slot =>
    refine hostOp_now ?_
    split
    · split <;> rfl
    · rfl
  | poll time => exact execPoll_keepsNow time s
  | arrive b => rfl
  | startShort => exact (runRxRow_effect .startShort s).keepsNow
  | startLong => exact (runRxRow_effect .startLong s).keepsNow
  | startOther b => exact (runRxRow_effect (.startOther b) s).keepsNow
  | length b => exact (runRxRow_effect (.length b) s).keepsNow
  | data b => exact (runRxRow_effect (.data b) s).keepsNow
  | terminator => exact (runRxRow_effect .terminator s).keepsNow
  | notTerminator b => exact (runRxRow_effect (.notTerminator b) s).keepsNow
  | identOk => exact keepsNow_of_decoded (execIdentOk_decoded s)
  | identMismatch b => exact keepsNow_of_decoded (execIdentMismatch_decoded b s)
  | opRequestTelemetry => exact keepsNow_of_decoded (execOpRequestTelemetry_decoded s)
  | opArm op => exact keepsNow_of_decoded (execOpArm_decoded op s)
  | opUnknown op => exact keepsNow_of_decoded (execOpUnknown_decoded op s)

theorem exec_now {i : Instr} (h : exec i s = .next t) : t.now = s.now := by
  have hk := exec_keepsNow i s
  rwa [h] at hk

/-- Settles O52: a step moves the time only by taking a line, and a line of the past is refused at the present time (log 10). -/
theorem timeNeverDecreases : Obligations.TimeNeverDecreases := by
  intro s t h
  rcases step_cases s with ⟨-, e⟩ | ⟨l, rest, -, -, e⟩ | ⟨l, rest, r, -, ht, -, e⟩ | ⟨l, rest, i, -, ht, -, e⟩
  · obtain rfl := Host.Outcome.next.inj (e.symm.trans h)
    exact le_rfl
  · obtain rfl := Host.Outcome.next.inj (e.symm.trans h)
    exact le_rfl
  · obtain rfl := Host.Outcome.next.inj (e.symm.trans h)
    exact ht
  · have hnow : t.now = l.now := exec_now (e.symm.trans h)
    exact hnow ▸ ht

end Sys2Proof.Machine
end

section
/-!
What an instruction can do, said once (`ExecEffect`), and what the shared operations leave unchanged. Later proofs about all
instructions go by the cases of `ExecEffect`.
-/

namespace Sys2Proof.Machine

open Sys2Proof.Claims

variable {s t : State}

/-! ## What the shared operations leave unchanged -/

theorem failCall_frame (o : OutcomeCode) (s : State) :
    failCall o s = { s with call := .none, rx_state := .awaitStart, responses := (failCall o s).responses } := by
  rcases failCall_cases o s with e | ⟨r, e⟩ <;> rw [e] <;> rfl

@[simp] theorem failCall_rx_buf (o : OutcomeCode) (s : State) : (failCall o s).rx_buf = s.rx_buf := by
  rw [failCall_frame]

@[simp] theorem failCall_slots (o : OutcomeCode) (s : State) : (failCall o s).slots = s.slots := by
  rw [failCall_frame]

@[simp] theorem failCall_rx_fifo (o : OutcomeCode) (s : State) : (failCall o s).rx_fifo = s.rx_fifo := by
  rw [failCall_frame]

@[simp] theorem failCall_tx_log (o : OutcomeCode) (s : State) : (failCall o s).tx_log = s.tx_log := by
  rw [failCall_frame]

@[simp] theorem failCall_refused (o : OutcomeCode) (s : State) : (failCall o s).refused = s.refused := by
  rw [failCall_frame]

@[simp] theorem failCall_fault (o : OutcomeCode) (s : State) : (failCall o s).fault = s.fault := by
  rw [failCall_frame]

/-- A decode writes the slots, and what it answers. -/
theorem Decoded.frame (h : Decoded s t) :
    t = { s with slots := t.slots, diag_log := t.diag_log, refused := t.refused, responses := t.responses } := by
  cases h <;> rfl

theorem Decoded.rx_buf (h : Decoded s t) : t.rx_buf = s.rx_buf := by
  rw [h.frame]

theorem Decoded.rx_fifo (h : Decoded s t) : t.rx_fifo = s.rx_fifo := by
  rw [h.frame]

theorem Decoded.tx_log (h : Decoded s t) : t.tx_log = s.tx_log := by
  rw [h.frame]

theorem Decoded.fault (h : Decoded s t) : t.fault = s.fault := by
  rw [h.frame]

theorem Decoded.refused_mono (h : Decoded s t) (hs : s.refused = true) : t.refused = true := by
  cases h with
  | refused => rfl
  | _ => exact hs

/-- A decode that changes the slots answers OK with its opcode (43_command_codec.md R228). -/
theorem Decoded.slots_eq_or_answers_ok (h : Decoded s t) :
    t.slots = s.slots ∨ ∃ op, t.responses = s.responses ++ [.decoded .ok (some op)] := by
  cases h with
  | committed a op _ _ => exact .inr ⟨op, rfl⟩
  | _ => exact .inl rfl

/-- A receiver row leaves the configuration, the bindings, the accumulator, the queues, the `fault` mark and the environment. -/
theorem RxEffect.frame (h : RxEffect s (.next t)) :
    t = { s with
      call := t.call, rx_state := t.rx_state, rx_buf := t.rx_buf, rx_count := t.rx_count, rx_expected := t.rx_expected,
      rx_len := t.rx_len, payload := t.payload, slots := t.slots, diag_log := t.diag_log, refused := t.refused,
      responses := t.responses } := by
  cases h with
  | startLong => rw [failCall_frame]; rfl
  | overflowed => rw [failCall_frame]; rfl
  | mismatch => rw [failCall_frame]; rfl
  | decoded p t _ _ _ _ ht => rw [ht.frame]; rfl
  | _ => rfl

theorem RxEffect.rx_fifo (h : RxEffect s (.next t)) : t.rx_fifo = s.rx_fifo := by
  rw [h.frame]

theorem RxEffect.tx_log (h : RxEffect s (.next t)) : t.tx_log = s.tx_log := by
  rw [h.frame]

theorem RxEffect.fault (h : RxEffect s (.next t)) : t.fault = s.fault := by
  rw [h.frame]

theorem RxEffect.refused_mono (h : RxEffect s (.next t)) (hs : s.refused = true) : t.refused = true := by
  cases h with
  | refused => rfl
  | startLong => exact (failCall_refused ..).trans hs
  | overflowed => exact (failCall_refused ..).trans hs
  | mismatch => exact (failCall_refused ..).trans hs
  | decoded p t _ _ _ _ ht => exact ht.refused_mono hs
  | _ => exact hs

theorem RxEffect.slots_eq_or_answers_ok (h : RxEffect s (.next t)) :
    t.slots = s.slots ∨ ∃ op, t.responses = s.responses ++ [.decoded .ok (some op)] := by
  cases h with
  | startLong => exact .inl (failCall_slots ..)
  | overflowed => exact .inl (failCall_slots ..)
  | mismatch => exact .inl (failCall_slots ..)
  | decoded p t _ _ _ _ ht => exact ht.slots_eq_or_answers_ok
  | _ => exact .inl rfl

/-- A byte that is appended is taken in Accumulating. -/
theorem rxContext_accumulating {c : RxContext} (h : rxContext s = some c) (hc : c = .middle ∨ c = .last) :
    s.call ≠ .none ∧ s.rx_state = .accumulating := by
  rcases hc with rfl | rfl
  · obtain ⟨hn, hs, -⟩ := rxContext_middle_iff.mp h
    exact ⟨hn, hs⟩
  · obtain ⟨hn, hs, -⟩ := rxContext_last_iff.mp h
    exact ⟨hn, hs⟩

/-- In Accumulating the receiver writes at `rx_count` (41_frame_receiver.md R158). -/
theorem rxWriteIndex_append {c : RxContext} (h : rxContext s = some c) (hc : c = .middle ∨ c = .last) :
    rxWriteIndex s = s.rx_count := by
  obtain ⟨-, hr⟩ := rxContext_accumulating h hc
  simp [rxWriteIndex, hr]

/-- A receiver row stores at most one byte, where the receiver stands (10_state.md R44). -/
theorem RxEffect.rx_buf_eq_or_write (h : RxEffect s (.next t)) :
    t.rx_buf = s.rx_buf ∨ ∃ b, t.rx_buf = Cells.write s.rx_buf (rxWriteIndex s) b := by
  cases h with
  | refused => exact .inl rfl
  | startShort h => exact .inr ⟨0x02, by simp [rxWriteIndex, (rxContext_start_iff.mp h).2]⟩
  | startLong => exact .inl (failCall_rx_buf ..)
  | startOther => exact .inl rfl
  | length b h => exact .inr ⟨b, by simp [rxWriteIndex, (rxContext_length_iff.mp h).2]⟩
  | appended b c h hc => exact .inr ⟨b, by rw [rxWriteIndex_append h hc]; rfl⟩
  | overflowed b c h hc => exact .inr ⟨b, by rw [rxWriteIndex_append h hc, failCall_frame]; rfl⟩
  | mismatch _ _ h => exact .inr ⟨0x03, by rw [rxWriteIndex_append h (.inr rfl), failCall_frame]; rfl⟩
  | received p h => exact .inr ⟨0x03, by rw [rxWriteIndex_append h (.inr rfl)]; rfl⟩
  | decoded p t h _ _ _ ht => exact .inr ⟨0x03, by rw [rxWriteIndex_append h (.inr rfl), ht.frame]; rfl⟩

/-! ## What single receiver rows leave unchanged -/

/-- If the result is a next state, `f` has the value it has in `s`. -/
def Keeps {α : Type} (f : State → α) (s : State) : Result → Prop
  | .next t => f t = f s
  | _ => True

theorem rxRow_keeps {α : Type} {f : State → α} {r : RxRow} {run : Result} (hf : f (refuse s) = f s)
    (h : Keeps f s run) : Keeps f s (rxRow r s run) := by
  rcases rxRow_cases r s run with ⟨_, _, _, e⟩ | e
  · rw [e]; exact h
  · rw [e]; exact hf

theorem appendRow_keepsSlots (b : Byte) (s : State) :
    Keeps State.slots s (withRoom s (.next (keepOrOverflow (rxAppend b s)))) := by
  unfold withRoom
  split
  · rw [keepOrOverflow_rxAppend]
    split
    · exact failCall_slots ..
    · rfl
  · trivial

/-- Only the row that completes a frame decodes, so only it can write slots. -/
theorem runRxRow_keepsSlots {r : RxRow} (hr : r ≠ .terminator) (s : State) : Keeps State.slots s (runRxRow r s) := by
  cases r with
  | startShort => exact rxRow_keeps rfl rfl
  | startLong => exact rxRow_keeps rfl (failCall_slots ..)
  | startOther b => exact rxRow_keeps rfl rfl
  | length b => exact rxRow_keeps rfl rfl
  | data b => exact rxRow_keeps rfl (appendRow_keepsSlots b s)
  | terminator => exact absurd rfl hr
  | notTerminator b => exact rxRow_keeps rfl (appendRow_keepsSlots b s)

theorem execStartLong_keepsRxBuf (s : State) : Keeps State.rx_buf s (execStartLong s) :=
  rxRow_keeps rfl (failCall_rx_buf ..)

theorem execStartOther_keepsRxBuf (b : Byte) (s : State) : Keeps State.rx_buf s (execStartOther b s) :=
  rxRow_keeps rfl rfl

/-! ## Every instruction -/

/-- What an instruction that answers a next state can do. -/
inductive ExecEffect (s : State) : Instr → State → Prop
  | refused (i : Instr) : ExecEffect s i (refuse s)
  | configured (timeout : Nat) (ident : Byte) (crcInit : Word16) (reqSentinel : Byte) (optable : OpTable)
      (hu : s.configured = false) (hc : configurable crcInit optable = true) :
      ExecEffect s (.configure timeout ident crcInit reqSentinel optable)
        (respond .done (configuredState timeout ident crcInit reqSentinel optable s))
  | answered (i : Instr) (r : Response) (h : Ready s) : ExecEffect s i (respond r s)
  | transportBound (h : Ready s) : ExecEffect s .bindTransport (respond .done { s with transport_bound := true })
  | diagBound (h : Ready s) : ExecEffect s .bindDiag (respond .done { s with diag_bound := true })
  | accumulatorCleared (h : Ready s) : ExecEffect s .crcClear (respond .done { s with crc_acc := s.cfg_crc_init })
  | accumulatorFed (b : Byte) (h : Ready s) :
      ExecEffect s (.crcFeed b) (respond .done { s with crc_acc := crcStep s.crc_acc b })
  | sent (p : List Byte) (h : Ready s) (hb : s.transport_bound = true) :
      ExecEffect s (.txSend p)
        (respond (.sent .ok (drawTxAccept (pack s.cfg_crc_init p).length s)) (transmit (pack s.cfg_crc_init p) s))
  | opened (h : Ready s) (hb : s.transport_bound = true) : ExecEffect s .rxReceive (openCall .receive s)
  | requested (op : Byte) (h : Ready s) (hb : s.transport_bound = true) :
      ExecEffect s (.request op) (openCall .request (transmit (pack s.cfg_crc_init (requestPayload s op)) s))
  | faulted (sl : Slot) (h : Ready s) (hs : readSlot s sl = none) : ExecEffect s (.readField sl.record sl) (markFault s)
  | decode (p : List Byte) (t : State) (h : Ready s) (hp : p.length ≤ 255) (ht : Decoded (loadPayload p s) t) :
      ExecEffect s (.decode p) t
  | idlePoll (time : Nat) : ExecEffect s (.poll time) s
  | timedOut (time : Nat) (h : s.call ≠ .none) : ExecEffect s (.poll time) (failCall .timeout s)
  | byteTaken (time : Nat) (b : Byte) (rest : List Byte) (t : State) (h : s.call ≠ .none) (hd : time < s.rx_deadline)
      (hf : s.rx_fifo = b :: rest) (ht : RxEffect (setFifo rest s) (.next t)) : ExecEffect s (.poll time) t
  | arrived (b : Byte) : ExecEffect s (.arrive b) { s with rx_fifo := s.rx_fifo ++ [b] }
  | receiverRow (r : RxRow) (t : State) (ht : runRxRow r s = .next t) : ExecEffect s r.toInstr t
  | decodeRow (i : Instr) (t : State) (hi : i.mnemonic ∈ [Mnemonic.identOk, .opArm, .opRequestTelemetry])
      (ht : Decoded s t) : ExecEffect s i t
  | identifierRejected (b : Byte) : ExecEffect s (.identMismatch b) (rejectDecode .identifierMismatch b none s)
  | opcodeRejected (op : Byte) : ExecEffect s (.opUnknown op) (rejectDecode .unknownOpcode op (some op) s)

/-- If the result is a next state, it is one `ExecEffect` gives the instruction. -/
def HasEffect (i : Instr) (s : State) : Result → Prop
  | .next t => ExecEffect s i t
  | _ => True

/-- A host operation has the effect of the run it guards, or is refused. -/
theorem hostOp_effect {i : Instr} {run : State} (h : Ready s → ExecEffect s i run) : ExecEffect s i (hostOp s run) := by
  rcases hostOp_cases s run with ⟨hc, hn, e⟩ | e
  · rw [e]; exact h ⟨hc, hn⟩
  · rw [e]; exact .refused i

theorem execConfigure_effect (timeout : Nat) (ident : Byte) (crcInit : Word16) (reqSentinel : Byte) (optable : OpTable)
    (s : State) : HasEffect (.configure timeout ident crcInit reqSentinel optable) s
      (execConfigure timeout ident crcInit reqSentinel optable s) := by
  unfold execConfigure
  split
  · rename_i h
    obtain ⟨hu, -, hc⟩ := h
    exact .configured _ _ _ _ _ hu hc
  · exact .refused _

theorem execTxSend_effect (p : List Byte) (s : State) : HasEffect (.txSend p) s (execTxSend p s) := by
  refine hostOp_effect fun h => ?_
  split_ifs with hb
  · exact .answered _ _ h
  · exact .answered _ _ h
  · exact .sent p h (by simpa using hb)

theorem execRxReceive_effect (s : State) : HasEffect .rxReceive s (execRxReceive s) := by
  refine hostOp_effect fun h => ?_
  split_ifs with hb
  · exact .answered _ _ h
  · exact .opened h (by simpa using hb)

theorem execRequest_effect (op : Byte) (s : State) : HasEffect (.request op) s (execRequest op s) := by
  refine hostOp_effect fun h => ?_
  split_ifs with hb
  · exact .answered _ _ h
  · exact .requested op h (by simpa using hb)

theorem execEncFields_effect (op : Byte) (vs : List (Kind × FieldIn)) (s : State) :
    HasEffect (.encFields op vs) s (execEncFields op vs s) := by
  refine hostOp_effect fun h => ?_
  dsimp only
  split_ifs
  · exact .answered _ _ h
  · exact .answered _ _ h
  · exact .refused _

theorem execReadField_effect (record : Record) (slot : Slot) (s : State) :
    HasEffect (.readField record slot) s (execReadField record slot s) := by
  refine hostOp_effect fun h => ?_
  split
  · rename_i hr
    subst hr
    split
    · exact .faulted slot h ‹_›
    · exact .answered _ _ h
  · exact .refused _

theorem execDecode_effect (p : List Byte) (s : State) : HasEffect (.decode p) s (execDecode p s) := by
  rcases execDecode_cases p s with e | ⟨hc, hn, -, e⟩ | ⟨hc, hn, hp, t, e, ht⟩ <;> rw [e]
  · exact .refused _
  · exact .answered _ _ ⟨hc, hn⟩
  · exact .decode p t ⟨hc, hn⟩ hp ht

theorem execPoll_effect (time : Nat) (s : State) : HasEffect (.poll time) s (execPoll time s) := by
  rcases execPoll_cases time s with e | ⟨hn, -, e⟩ | ⟨-, -, e⟩ | ⟨b, rest, c, hn, hd, hf, -, e⟩ <;> rw [e]
  · exact .idlePoll time
  · exact .timedOut time hn
  · trivial
  · have heff := runRxRow_effect (decodeRx c b) (setFifo rest s)
    generalize runRxRow (decodeRx c b) (setFifo rest s) = r at heff
    cases r with
    | next t => exact .byteTaken time b rest t hn hd hf heff
    | fault f => trivial
    | refused r => trivial

theorem receiverRow_effect (r : RxRow) (s : State) : HasEffect r.toInstr s (runRxRow r s) := by
  cases h : runRxRow r s with
  | next t => exact .receiverRow r t h
  | fault f => trivial
  | refused r => trivial

theorem decodeRow_effect {i : Instr} {r : Result} (hi : i.mnemonic ∈ [Mnemonic.identOk, .opArm, .opRequestTelemetry])
    (h : ∃ t, r = .next t ∧ Decoded s t) : HasEffect i s r := by
  obtain ⟨t, rfl, ht⟩ := h
  exact .decodeRow i t hi ht

theorem execIdentMismatch_effect (b : Byte) (s : State) : HasEffect (.identMismatch b) s (execIdentMismatch b s) := by
  unfold execIdentMismatch
  split
  · exact .identifierRejected b
  · exact .refused _

theorem execOpUnknown_effect (op : Byte) (s : State) : HasEffect (.opUnknown op) s (execOpUnknown op s) := by
  unfold execOpUnknown
  split
  · exact .opcodeRejected op
  · exact .refused _

/-- Every instruction has one of `ExecEffect`'s effects, if it does not stop. -/
theorem exec_hasEffect (i : Instr) (s : State) : HasEffect i s (exec i s) := by
  cases i with
  | configure timeout ident crcInit reqSentinel optable => exact execConfigure_effect ..
  | bindTransport => exact hostOp_effect fun h => by split; exacts [.refused _, .transportBound h]
  | bindDiag => exact hostOp_effect fun h => by split; exacts [.refused _, .diagBound h]
  | crcClear => exact hostOp_effect .accumulatorCleared
  | crcFeed b => exact hostOp_effect (.accumulatorFed b)
  | crcRead => exact hostOp_effect (.answered _ _)
  | crcCompute bytes => exact hostOp_effect (.answered _ _)
  | txSend p => exact execTxSend_effect p s
  | rxReceive => exact execRxReceive_effect s
  | decode p => exact execDecode_effect p s
  | encRequest op => exact hostOp_effect (.answered _ _)
  | encFields op vs => exact execEncFields_effect op vs s
  | request op => exact execRequest_effect op s
  | readField record slot => exact execReadField_effect record slot s
  | poll time => exact execPoll_effect time s
  | arrive b => exact .arrived b
  | startShort => exact receiverRow_effect .startShort s
  | startLong => exact receiverRow_effect .startLong s
  | startOther b => exact receiverRow_effect (.startOther b) s
  | length b => exact receiverRow_effect (.length b) s
  | data b => exact receiverRow_effect (.data b) s
  | terminator => exact receiverRow_effect .terminator s
  | notTerminator b => exact receiverRow_effect (.notTerminator b) s
  | identOk => exact decodeRow_effect (by decide) (execIdentOk_decoded s)
  | identMismatch b => exact execIdentMismatch_effect b s
  | opRequestTelemetry => exact decodeRow_effect (by decide) (execOpRequestTelemetry_decoded s)
  | opArm op => exact decodeRow_effect (by simp [Instr.mnemonic]) (execOpArm_decoded op s)
  | opUnknown op => exact execOpUnknown_effect op s

theorem exec_effect {i : Instr} (h : exec i s = .next t) : ExecEffect s i t := by
  have he := exec_hasEffect i s
  rwa [h] at he

theorem runRxRow_next_effect {r : RxRow} (h : runRxRow r s = .next t) : RxEffect s (.next t) :=
  h ▸ runRxRow_effect r s

end Sys2Proof.Machine
end

section
/-!
The proof of O58. Each operation an instruction is made of keeps the invariant. The part of it that does not speak of an open call is
`Inv (closeCall s)`: the call can be ended at any byte, so a row that stores a byte is proved to keep that part first, and then, where
the call stays open, that the receiver's registers stand as its new state says.
-/

namespace Sys2Proof.Machine

variable {s t : State}

/-! ## What the invariant reads -/

/-- The state with every field the invariant does not read at a fixed value. -/
def invPart (s : State) : State :=
  { s with
    cfg_timeout := 0, cfg_ident := 0, cfg_req_sentinel := 0, crc_acc := 0, rx_deadline := 0, rx_fifo := [], tx_log := [],
    diag_log := [], refused := false, fault := false, now := 0, inputs := [], responses := [], tx_answers := [],
    tx_draws := 0 }

theorem inv_invPart_iff : Inv (invPart s) ↔ Inv s := ⟨fun h => { h with }, fun h => { h with }⟩

/-- The invariant holds of every state that differs only in fields it does not read. -/
theorem Inv.of_invPart_eq (h : Inv s) (e : invPart t = invPart s) : Inv t :=
  inv_invPart_iff.mp (e ▸ inv_invPart_iff.mpr h)

/-! ## Opening and closing a call -/

theorem inv_closeCall (h : Inv s) : Inv (closeCall s) :=
  { h with
    callBound := fun hn => absurd rfl hn
    idleStart := fun _ => rfl
    receiver := fun hn => absurd rfl hn }

/-- What is left to show in an open call, beyond what holds of the state with the call closed. -/
theorem Inv.of_closeCall (h : Inv (closeCall s)) (hc : s.call ≠ .none) (hb : s.transport_bound = true)
    (hr : receiverInv s) : Inv s :=
  { h with
    callBound := fun _ => hb
    idleStart := fun hn => absurd hn hc
    receiver := fun _ => hr }

theorem inv_failCall (o : OutcomeCode) (h : Inv (closeCall s)) : Inv (failCall o s) := by
  rcases failCall_cases o s with e | ⟨r, e⟩ <;> rw [e]
  · exact h
  · exact h.of_invPart_eq rfl

theorem inv_openCall {c : Call} (h : Inv s) (hc : c ≠ .none) (hb : s.transport_bound = true) : Inv (openCall c s) := by
  refine Inv.of_closeCall ?_ hc hb rfl
  exact { inv_closeCall h with
    countBound := Nat.zero_le _
    expectedBound := Nat.zero_le _
    receiver := fun hn => absurd rfl hn }

/-! ## Configuration, payload and slots -/

theorem inv_configuredState (timeout : Nat) (ident : Byte) {crcInit : Word16} (reqSentinel : Byte) {optable : OpTable}
    (s : State) (h : configurable crcInit optable = true) :
    Inv (configuredState timeout ident crcInit reqSentinel optable s) := by
  obtain ⟨hcrc, htable⟩ := (configurable_iff crcInit optable).mp h
  exact {
    bufWf := Cells.wf_nil
    bufBound := nofun
    slotsWf := Cells.wf_nil
    slotsTyped := nofun
    tableOk := htable
    crcInit := hcrc
    payloadFits := Nat.zero_le _
    countBound := Nat.zero_le _
    expectedBound := Nat.zero_le _
    boundConfigured := nofun
    diagConfigured := nofun
    callBound := fun hn => absurd rfl hn
    idleStart := fun _ => rfl
    receiver := fun hn => absurd rfl hn }

theorem inv_loadPayload {p : List Byte} (h : Inv s) (hp : p.length ≤ 255) : Inv (loadPayload p s) := by
  rw [loadPayload_of_fits hp]
  exact { h with payloadFits := hp }

/-- The fields of an opcode's arm are fields of the table. -/
theorem arm_fields_subset {table : OpTable} {op : Byte} {a : Arm} (h : table.arm op = some a) :
    a.fields ⊆ table.fields :=
  fun _ hf => List.mem_flatMap.mpr ⟨_, Cells.mem_of_read _ _ _ h, hf⟩

/-- An arm of the table writes slots of the kinds the table gives them (10_state.md R50). -/
theorem inv_writeSlots_arm {a : Arm} {op : Byte} (h : Inv s) (ha : s.cfg_optable.arm op = some a) (p : List Byte) (i : Nat) :
    Inv (writeSlots (fieldWrites a.fields p i) s) := by
  refine { h with slotsWf := writeSlots_wf _ h.slotsWf, slotsTyped := fun c hc => ?_ }
  rcases mem_writeSlots _ _ c hc with ⟨w, hw, rfl⟩ | hc
  · obtain ⟨f, hf, hslot, hkind, hwidth⟩ := mem_fieldWrites hw
    exact ⟨f, arm_fields_subset ha hf, congrArg Slot.key hslot, hkind, hwidth⟩
  · exact h.slotsTyped c hc

theorem Decoded.inv (hd : Decoded s t) (h : Inv s) : Inv t := by
  cases hd with
  | rejected => exact h.of_invPart_eq rfl
  | committed a op ha _ => exact (inv_writeSlots_arm h ha s.payload 2).of_invPart_eq rfl
  | refused => exact h.of_invPart_eq rfl

/-! ## The receiver rows -/

/-- A store below index 260 keeps what the invariant says of `rx_buf` (20_memory.md R79). -/
theorem inv_rxStore {i : Nat} (b : Byte) (h : Inv (closeCall s)) (hi : i < 260) :
    Inv (closeCall (rxStore i b s)) := by
  refine { h with bufWf := rxStore_wf i b h.bufWf, bufBound := fun c hc => ?_ }
  rcases Cells.mem_write _ _ _ _ hc with rfl | hc
  · exact hi
  · exact h.bufBound c hc

theorem inv_rxAppend (b : Byte) (h : Inv (closeCall s)) (hr : s.rx_count < 260) :
    Inv (closeCall (rxAppend b s)) :=
  { inv_rxStore b h hr with
    countBound := hr
    receiver := fun hn => absurd rfl hn }

theorem inv_startShort (h : Inv s) (hc : s.call ≠ .none) :
    Inv { rxStore 0 0x02 s with rx_count := 1, rx_state := .awaitShortLength } := by
  refine Inv.of_closeCall ?_ hc (h.callBound hc) ⟨rfl, Cells.read_write_same ..⟩
  exact { inv_rxStore 0x02 (inv_closeCall h) (by decide : 0 < 260) with
    countBound := (by decide : 1 ≤ 260)
    receiver := fun hn => absurd rfl hn }

theorem inv_lengthByte (b : Byte) (h : Inv s) (hc : s.call ≠ .none) (hs : s.rx_state = .awaitShortLength) :
    Inv { rxStore 1 b s with rx_count := 2, rx_len := b, rx_expected := b.toNat + 5, rx_state := .accumulating } := by
  have hb : b.toNat < 256 := b.isLt
  obtain ⟨-, h0⟩ : s.rx_count = 1 ∧ Cells.read s.rx_buf 0 = some 0x02 := by
    simpa [receiverInv, hs] using h.receiver hc
  have hread0 : Cells.read (Cells.write s.rx_buf 1 b) 0 = some 0x02 := by rw [Cells.read_write_other _ _ _ _ (by decide), h0]
  have hread1 : Cells.read (Cells.write s.rx_buf 1 b) 1 = some b := Cells.read_write_same ..
  refine Inv.of_closeCall ?_ hc (h.callBound hc) ⟨le_rfl, (by decide : 2 < 260), rfl, hread0, hread1, fun i hi => ?_⟩
  · exact { inv_rxStore b (inv_closeCall h) (by decide : 1 < 260) with
      countBound := (by decide : 2 ≤ 260)
      expectedBound := (by omega : b.toNat + 5 ≤ 260)
      receiver := fun hn => absurd rfl hn }
  · obtain rfl | rfl : i = 0 ∨ i = 1 := by have : i < 2 := hi; omega
    · exact Option.isSome_of_eq_some hread0
    · exact Option.isSome_of_eq_some hread1

/-- A byte appended below 260 leaves the receiver accumulating, with every index up to the new count written. -/
theorem receiverInv_rxAppend (b : Byte) (hr : receiverInv s) (hs : s.rx_state = .accumulating) (hlt : s.rx_count + 1 < 260) :
    receiverInv (rxAppend b s) := by
  simp only [receiverInv, hs] at hr
  obtain ⟨h2, -, hexp, h0, h1, hall⟩ := hr
  simp only [receiverInv, rxAppend_rx_state, hs, rxAppend_rx_count, rxAppend_rx_expected, rxAppend_rx_len, rxAppend_rx_buf]
  refine ⟨by omega, hlt, hexp, ?_, ?_, fun i hi => ?_⟩
  · rw [Cells.read_write_other _ _ _ _ (by omega), h0]
  · rw [Cells.read_write_other _ _ _ _ (by omega), h1]
  · by_cases he : i = s.rx_count
    · simp [he]
    · rw [Cells.read_write_other _ _ _ _ he]
      exact hall i (by omega)

/-- The state an accepted frame leaves before its response: 41_frame_receiver.md R151. -/
theorem inv_acceptedState {p : List Byte} (h : Inv s) (hr : s.rx_count < 260) (hp : p.length = s.rx_len.toNat) :
    Inv (acceptedState p s) := by
  have hlen : s.rx_len.toNat < 256 := s.rx_len.isLt
  refine inv_loadPayload ?_ (by omega)
  exact (inv_rxAppend 0x03 (inv_closeCall h) hr).of_invPart_eq rfl

theorem RxEffect.inv (he : RxEffect s (.next t)) (h : Inv s) : Inv t := by
  cases he with
  | refused => exact h.of_invPart_eq rfl
  | startShort hx => exact inv_startShort h (rxContext_start_iff.mp hx).1
  | startLong => exact inv_failCall _ ((inv_closeCall h).of_invPart_eq rfl)
  | startOther => exact h.of_invPart_eq rfl
  | length b hx =>
    obtain ⟨hc, hs⟩ := rxContext_length_iff.mp hx
    exact inv_lengthByte b h hc hs
  | appended b c hx hcx hr =>
    obtain ⟨hc, hs⟩ := rxContext_accumulating hx hcx
    exact Inv.of_closeCall (inv_rxAppend b (inv_closeCall h) (by omega)) hc (h.callBound hc)
      (receiverInv_rxAppend b (h.receiver hc) hs hr)
  | overflowed b c _ _ hr =>
    exact inv_failCall _ ((inv_rxAppend b (inv_closeCall h) (by omega)).of_invPart_eq rfl)
  | mismatch _ _ _ hr => exact inv_failCall _ ((inv_rxAppend 0x03 (inv_closeCall h) hr).of_invPart_eq rfl)
  | received p _ hr hp => exact (inv_acceptedState h hr hp).of_invPart_eq rfl
  | decoded p t _ hr hp _ ht => exact ht.inv (inv_acceptedState h hr hp)

/-! ## Every instruction, and the step -/

theorem ExecEffect.inv {i : Instr} (he : ExecEffect s i t) (h : Inv s) : Inv t := by
  cases he with
  | configured timeout ident crcInit reqSentinel optable _ hc =>
    exact (inv_configuredState timeout ident reqSentinel s hc).of_invPart_eq rfl
  | transportBound hr =>
    exact { h with boundConfigured := fun _ => hr.1, callBound := fun _ => rfl }
  | diagBound hr => exact { h with diagConfigured := fun _ => hr.1 }
  | opened _ hb => exact inv_openCall h (by decide) hb
  | requested op _ hb => exact inv_openCall (h.of_invPart_eq rfl) (by decide) hb
  | decode p t _ hp ht => exact ht.inv (inv_loadPayload h hp)
  | idlePoll => exact h
  | timedOut => exact inv_failCall _ (inv_closeCall h)
  | byteTaken time b rest t _ _ _ ht => exact ht.inv (h.of_invPart_eq rfl)
  | receiverRow r t ht => exact (runRxRow_next_effect ht).inv h
  | decodeRow i t _ ht => exact ht.inv h
  | _ => exact h.of_invPart_eq rfl

/-- Settles O58: a step takes a line, which the invariant does not read, and runs its instruction, whose every effect keeps it. -/
theorem stepKeepsInvariant : Obligations.StepKeepsInvariant := by
  intro s t h hstep
  rcases step_cases s with ⟨-, e⟩ | ⟨l, rest, -, -, e⟩ | ⟨l, rest, r, -, -, -, e⟩ | ⟨l, rest, i, -, -, -, e⟩
  · obtain rfl := Host.Outcome.next.inj (e.symm.trans hstep)
    exact h
  · obtain rfl := Host.Outcome.next.inj (e.symm.trans hstep)
    exact h.of_invPart_eq rfl
  · obtain rfl := Host.Outcome.next.inj (e.symm.trans hstep)
    exact h.of_invPart_eq rfl
  · exact (exec_effect (e.symm.trans hstep)).inv (h.of_invPart_eq rfl)

end Sys2Proof.Machine
end

section
/-!
The proofs of O23, O44, O45, O48, O50 and O51: which instructions write a field of the state, by the cases of `ExecEffect`.
-/

namespace Sys2Proof.Machine

open Sys2Proof.Claims

variable {s t : State} {i : Instr}

/-! ## `rx_buf` -/

theorem rxRead_congr (h : t.rx_buf = s.rx_buf) (a : Nat) : rxRead t a = rxRead s a := by
  simp only [rxRead, h]

theorem rxRead_of_write_other {k a : Nat} {b : Byte} (h : t.rx_buf = Cells.write s.rx_buf k b) (ha : a ≠ k) :
    rxRead t a = rxRead s a := by
  simp only [rxRead, h, Cells.read_write_other _ _ _ _ ha]

/-- The rows that store the byte they take, and the POLL that runs them. -/
def storingRows : List Mnemonic := [.poll, .startShort, .length, .data, .terminator, .notTerminator]

/-- START_LONG and START_OTHER store nothing; every other receiver row is a storing row. -/
theorem runRxRow_rx_buf_eq_or_storing {r : RxRow} (h : runRxRow r s = .next t) :
    t.rx_buf = s.rx_buf ∨ r.toInstr.mnemonic ∈ storingRows := by
  cases r with
  | startLong =>
    have hk := execStartLong_keepsRxBuf s
    rw [show execStartLong s = .next t from h] at hk
    exact .inl hk
  | startOther b =>
    have hk := execStartOther_keepsRxBuf b s
    rw [show execStartOther b s = .next t from h] at hk
    exact .inl hk
  | _ => exact .inr (by simp [RxRow.toInstr, Instr.mnemonic, storingRows])

/-- An instruction leaves `rx_buf`, or is a storing row and writes where the receiver stands. -/
theorem ExecEffect.rx_buf_eq_or_write (h : ExecEffect s i t) (hi : i.mnemonic ≠ .configure) :
    t.rx_buf = s.rx_buf ∨
      (i.mnemonic ∈ storingRows ∧ ∃ b, t.rx_buf = Cells.write s.rx_buf (rxWriteIndex s) b) := by
  cases h with
  | configured => exact absurd rfl hi
  | decode p t _ _ ht => exact .inl ht.rx_buf
  | timedOut => exact .inl (failCall_rx_buf ..)
  | byteTaken time b rest t _ _ _ ht =>
    exact ht.rx_buf_eq_or_write.imp_right fun hw => ⟨by simp [Instr.mnemonic, storingRows], hw⟩
  | receiverRow r t ht =>
    rcases runRxRow_rx_buf_eq_or_storing ht with hk | hr
    · exact .inl hk
    · exact (runRxRow_next_effect ht).rx_buf_eq_or_write.imp_right fun hw => ⟨hr, hw⟩
  | decodeRow i t _ ht => exact .inl ht.rx_buf
  | _ => exact .inl rfl

/-- Settles O23: an instruction that changes `rx_buf` is a storing row, and its one write is where the receiver stands. -/
theorem rxBufWrittenOnlyByReceiver : Obligations.RxBufWrittenOnlyByReceiver := by
  intro i s t h hi
  rcases (exec_effect h).rx_buf_eq_or_write hi with hk | ⟨hrow, b, hw⟩
  · exact ⟨fun a _ => rxRead_congr hk a, fun _ a => rxRead_congr hk a⟩
  · exact ⟨fun a ha => rxRead_of_write_other hw ha, fun hn => absurd hrow hn⟩

/-! ## The record slots -/

theorem runRxRow_slots_eq_or_terminator {r : RxRow} (h : runRxRow r s = .next t) :
    t.slots = s.slots ∨ r = .terminator := by
  by_cases hr : r = .terminator
  · exact .inr hr
  · have hk := runRxRow_keepsSlots hr s
    rw [h] at hk
    exact .inl hk

/-- The instructions a decode runs in. -/
def decodingRows : List Mnemonic := [.decode, .poll, .terminator, .identOk, .opArm, .opRequestTelemetry]

/-- An instruction leaves the slots, or answers OK with an opcode and is one a decode runs in (43_command_codec.md R228). -/
theorem ExecEffect.slots_eq_or_answers_ok (h : ExecEffect s i t) (hi : i.mnemonic ≠ .configure) :
    t.slots = s.slots ∨
      ((∃ op, t.responses = s.responses ++ [.decoded .ok (some op)]) ∧ i.mnemonic ∈ decodingRows) := by
  cases h with
  | configured => exact absurd rfl hi
  | decode p t _ _ ht =>
    exact ht.slots_eq_or_answers_ok.imp_right fun hok => ⟨hok, by simp [Instr.mnemonic, decodingRows]⟩
  | timedOut => exact .inl (failCall_slots ..)
  | byteTaken time b rest t _ _ _ ht =>
    exact ht.slots_eq_or_answers_ok.imp_right fun hok => ⟨hok, by simp [Instr.mnemonic, decodingRows]⟩
  | receiverRow r t ht =>
    rcases runRxRow_slots_eq_or_terminator ht with hk | rfl
    · exact .inl hk
    · exact (runRxRow_next_effect ht).slots_eq_or_answers_ok.imp_right fun hok => ⟨hok, by decide⟩
  | decodeRow i t hrow ht =>
    have hrows : [Mnemonic.identOk, .opArm, .opRequestTelemetry] ⊆ decodingRows := by decide
    exact ht.slots_eq_or_answers_ok.imp_right fun hok => ⟨hok, hrows hrow⟩
  | _ => exact .inl rfl

/-- Settles O45: by the effects of the instructions, slots change only where an arm's fields are committed. -/
theorem slotsChangeOnlyOnSuccessfulDecode : Obligations.SlotsChangeOnlyOnSuccessfulDecode := by
  intro i s t h hi hne
  exact ((exec_effect h).slots_eq_or_answers_ok hi).resolve_left hne

/-! ## The sticky marks and the bindings -/

theorem ExecEffect.refused_mono (h : ExecEffect s i t) (hs : s.refused = true) : t.refused = true := by
  cases h with
  | refused => rfl
  | decode p t _ _ ht => exact ht.refused_mono hs
  | timedOut => exact (failCall_refused ..).trans hs
  | byteTaken time b rest t _ _ _ ht => exact ht.refused_mono hs
  | receiverRow r t ht => exact (runRxRow_next_effect ht).refused_mono hs
  | decodeRow i t _ ht => exact ht.refused_mono hs
  | _ => exact hs

/-- An instruction leaves the `fault` mark, or is a READ_FIELD of an unwritten slot, which sets it (60_exceptions.md R301). -/
theorem ExecEffect.fault_eq_or_set (h : ExecEffect s i t) :
    t.fault = s.fault ∨
      (t.fault = true ∧ ∃ sl, i = .readField sl.record sl ∧ readSlot s sl = none ∧ Ready s) := by
  cases h with
  | faulted sl hr hs => exact .inr ⟨rfl, sl, rfl, hs, hr⟩
  | decode p t _ _ ht => exact .inl ht.fault
  | timedOut => exact .inl (failCall_fault ..)
  | byteTaken time b rest t _ _ _ ht => exact .inl ht.fault
  | receiverRow r t ht => exact .inl (runRxRow_next_effect ht).fault
  | decodeRow i t _ ht => exact .inl ht.fault
  | _ => exact .inl rfl

/-- On a configured block no instruction unbinds the transport or the diagnostics port. -/
theorem ExecEffect.bindings_mono (h : ExecEffect s i t) (hc : s.configured = true) :
    (s.transport_bound = true → t.transport_bound = true) ∧ (s.diag_bound = true → t.diag_bound = true) := by
  cases h with
  | configured _ _ _ _ _ hu => simp [hu] at hc
  | transportBound => exact ⟨fun _ => rfl, id⟩
  | diagBound => exact ⟨id, fun _ => rfl⟩
  | decode p t _ _ ht => rw [ht.frame]; exact ⟨id, id⟩
  | timedOut => rw [failCall_frame]; exact ⟨id, id⟩
  | byteTaken time b rest t _ _ _ ht => rw [ht.frame]; exact ⟨id, id⟩
  | receiverRow r t ht => rw [(runRxRow_next_effect ht).frame]; exact ⟨id, id⟩
  | decodeRow i t _ ht => rw [ht.frame]; exact ⟨id, id⟩
  | _ => exact ⟨id, id⟩

/-- Settles O48: no effect clears a mark or a binding, and only READ_FIELD's sets the `fault` mark. -/
theorem marksAndBindingsAreNeverCleared : Obligations.MarksAndBindingsAreNeverCleared := by
  intro i s t h
  have he := exec_effect h
  refine ⟨he.refused_mono, fun hs => ?_, fun hs ht => ?_, fun hc => (he.bindings_mono hc).1,
    fun hc => (he.bindings_mono hc).2⟩
  · rcases he.fault_eq_or_set with hk | ⟨hset, -⟩
    · exact hk.trans hs
    · exact hset
  · rcases he.fault_eq_or_set with hk | ⟨-, hread⟩
    · exact absurd (hk.symm.trans ht) (by simp [hs])
    · exact hread

/-! ## `tx_log` -/

/-- An instruction leaves `tx_log`, or is a send and appends to it (10_state.md R54). -/
theorem ExecEffect.tx_log_eq_or_appended (h : ExecEffect s i t) (hi : i.mnemonic ≠ .configure) :
    t.tx_log = s.tx_log ∨ (i.mnemonic ∈ [Mnemonic.txSend, .request] ∧ ∃ bytes, t.tx_log = s.tx_log ++ bytes) := by
  cases h with
  | configured => exact absurd rfl hi
  | sent p => exact .inr ⟨by simp [Instr.mnemonic], _, transmit_tx_log s _⟩
  | requested op => exact .inr ⟨by simp [Instr.mnemonic], _, transmit_tx_log s _⟩
  | decode p t _ _ ht => exact .inl ht.tx_log
  | timedOut => exact .inl (failCall_tx_log ..)
  | byteTaken time b rest t _ _ _ ht => exact .inl ht.tx_log
  | receiverRow r t ht => exact .inl (runRxRow_next_effect ht).tx_log
  | decodeRow i t _ ht => exact .inl ht.tx_log
  | _ => exact .inl rfl

/-- Settles O50: the transport write is the one effect on `tx_log`, and only TX_SEND and REQUEST have it. -/
theorem transmitLogGrowsOnlyBySends : Obligations.TransmitLogGrowsOnlyBySends := by
  intro i s t h hi
  rcases (exec_effect h).tx_log_eq_or_appended hi with hk | ⟨hsend, bytes, hb⟩
  · exact ⟨[], by rw [hk, List.append_nil], fun _ => rfl⟩
  · exact ⟨bytes, hb, fun hn => absurd hsend hn⟩

/-! ## The receive queue -/

/-- Settles O51: a byte leaves the queue only where a POLL takes it. -/
theorem receiveQueueLosesOnlyItsHead : Obligations.ReceiveQueueLosesOnlyItsHead := by
  intro i s t h hi
  cases exec_effect h with
  | decode p t _ _ ht => exact .inl ht.rx_fifo
  | timedOut => exact .inl (failCall_rx_fifo ..)
  | byteTaken time b rest t hc hd hf ht =>
    have hrest : t.rx_fifo = rest := ht.rx_fifo
    exact .inr ⟨time, b, rfl, hc, hd, hrest ▸ hf⟩
  | arrived => exact absurd rfl hi
  | receiverRow r t ht => exact .inl (runRxRow_next_effect ht).rx_fifo
  | decodeRow i t _ ht => exact .inl ht.rx_fifo
  | _ => exact .inl rfl

/-- Settles O44: ARRIVE has no guard, so its meaning is the append (10_state.md R53). -/
theorem arriveAppendsToReceiveQueue : Obligations.ArriveAppendsToReceiveQueue := fun _ _ => rfl

end Sys2Proof.Machine
end

section
/-!
The proofs of O56 and O57: the encoder of wire bytes inverts the decoder, context by context (30_encoding.md R106, R110).
-/

namespace Sys2Proof

/-! ## The rows that are selected by what a byte is not, and the rows an opcode byte selects -/

theorem decodeRx_startOther {b : Byte} (h : ¬(b = Config.startShort ∨ b = Config.startLong)) :
    decodeRx .start b = .startOther b := by
  obtain ⟨h2, h3⟩ := not_or.mp h
  simp only [decodeRx, if_neg h2, if_neg h3]

theorem decodeRx_notTerminator {b : Byte} (h : b ≠ Config.terminator) : decodeRx .last b = .notTerminator b := if_neg h

theorem decodeIdent_self (cfg : Byte) : decodeIdent cfg cfg = .identOk := if_pos rfl

theorem decodeIdent_other {cfg b : Byte} (h : b ≠ cfg) : decodeIdent cfg b = .identMismatch b := if_neg h

theorem decodeOp_of_noArm {t : OpTable} {op : Byte} (h : t.arm op = none) : decodeOp t op = .unknown op := by
  simp [decodeOp, h]

theorem decodeOp_of_telemetry {t : OpTable} {a : Arm} (h : t.arm telemetryOpcode = some a) (ha : a.isTelemetry = true) :
    decodeOp t telemetryOpcode = .requestTelemetry := by
  simp only [decodeOp, h, ha, and_self, if_true]

theorem decodeOp_of_arm {t : OpTable} {op : Byte} {a : Arm} (h : t.arm op = some a)
    (ha : ¬(op = telemetryOpcode ∧ a.isTelemetry = true)) : decodeOp t op = .arm op := by
  simp only [decodeOp, h, if_neg ha]

/-! ## The encoder on the rows of each context -/

theorem encodeWire_rxRow (r : RxContext) (b : Byte) : encodeWire (.rx r) (decodeRx r b).toInstr = some b := by
  cases r with
  | start =>
    by_cases h : b = Config.startShort ∨ b = Config.startLong
    · rcases h with rfl | rfl <;> rfl
    · rw [decodeRx_startOther h]
      exact if_neg h
  | length => rfl
  | middle => rfl
  | last =>
    by_cases h : b = Config.terminator
    · rw [h]; rfl
    · rw [decodeRx_notTerminator h]
      exact if_neg h

theorem encodeWire_identRow (cfg b : Byte) : encodeWire (.ident cfg) (decodeIdent cfg b).toInstr = some b := by
  by_cases h : b = cfg
  · rw [h, decodeIdent_self]; rfl
  · rw [decodeIdent_other h]
    exact if_neg h

theorem encodeWire_opRow (t : OpTable) (op : Byte) : encodeWire (.opcode t) (decodeOp t op).toInstr = some op := by
  cases h : t.arm op with
  | none =>
    rw [decodeOp_of_noArm h]
    simp [encodeWire, OpRow.toInstr, h]
  | some a =>
    by_cases ht : op = telemetryOpcode ∧ a.isTelemetry = true
    · obtain ⟨rfl, ha⟩ := ht
      rw [decodeOp_of_telemetry h ha]
      exact if_pos (by rw [h]; exact ha)
    · rw [decodeOp_of_arm h ht]
      simpa [encodeWire, OpRow.toInstr, h] using ht

/-- A byte encodes the row it selects. -/
@[simp] theorem encodeWire_decodeWire (c : WireContext) (b : Byte) : encodeWire c (decodeWire c b) = some b := by
  cases c with
  | rx r => exact encodeWire_rxRow r b
  | ident cfg => exact encodeWire_identRow cfg b
  | opcode t => exact encodeWire_opRow t b

/-! ## The decoder on the bytes the encoder gives -/

/-- The byte of a row selects that row: one case for each row of the selector map. -/
theorem decodeWire_of_encodeWire {c : WireContext} {i : Instr} {b : Byte} (h : encodeWire c i = some b) :
    decodeWire c b = i := by
  unfold encodeWire at h
  split at h
  -- The rows of one fixed byte, or of every byte.
  case h_1 | h_2 | h_4 | h_5 | h_6 => cases h; rfl
  -- START_OTHER
  case h_3 =>
    split_ifs at h with hb
    cases h
    exact congrArg RxRow.toInstr (decodeRx_startOther hb)
  -- NOT_TERMINATOR
  case h_7 =>
    split_ifs at h with hb
    cases h
    exact congrArg RxRow.toInstr (decodeRx_notTerminator hb)
  -- IDENT_OK
  case h_8 =>
    cases h
    exact congrArg IdentRow.toInstr (decodeIdent_self b)
  -- IDENT_MISMATCH
  case h_9 =>
    split_ifs at h with hb
    cases h
    exact congrArg IdentRow.toInstr (decodeIdent_other hb)
  -- OP_REQUEST_TELEMETRY
  case h_10 t =>
    split_ifs at h with ht
    cases h
    obtain ⟨a, ha, htel⟩ : ∃ a, t.arm telemetryOpcode = some a ∧ a.isTelemetry = true := by
      simpa [Option.getD_eq_iff] using ht
    exact congrArg OpRow.toInstr (decodeOp_of_telemetry ha htel)
  -- OP_ARM
  case h_11 t op =>
    split_ifs at h with ht
    cases h
    obtain ⟨hsome, htel⟩ := not_or.mp ht
    obtain ⟨a, ha⟩ : ∃ a, t.arm b = some a := Option.ne_none_iff_exists'.mp (by simpa using hsome)
    exact congrArg OpRow.toInstr (decodeOp_of_arm ha (by simpa [ha] using htel))
  -- OP_UNKNOWN
  case h_12 t op =>
    split_ifs at h with ht
    cases h
    exact congrArg OpRow.toInstr (decodeOp_of_noArm (Option.isNone_iff_eq_none.mp ht))
  -- Every other pair of a context and an instruction.
  case h_13 => cases h

/-! ## Lines and bytes -/

theorem encodeLine_rxRow (now : Nat) (r : RxRow) : encodeLine now r.toInstr = none := by cases r <;> rfl

theorem encodeLine_identRow (now : Nat) (r : IdentRow) : encodeLine now r.toInstr = none := by cases r <;> rfl

theorem encodeLine_opRow (now : Nat) (r : OpRow) : encodeLine now r.toInstr = none := by cases r <;> rfl

/-- No row of the wire has a line. -/
@[simp] theorem encodeLine_decodeWire (now : Nat) (c : WireContext) (b : Byte) : encodeLine now (decodeWire c b) = none := by
  cases c with
  | rx r => exact encodeLine_rxRow now _
  | ident cfg => exact encodeLine_identRow now _
  | opcode t => exact encodeLine_opRow now _

/-- The encoder gives a byte only where that byte is the row's. -/
theorem encodeWire_of_encode {c : WireContext} {now : Nat} {i : Instr} {b : Byte} (h : encode c now i = some (.wire c b)) :
    encodeWire c i = some b := by
  unfold encode at h
  split at h
  · cases h
  · simpa using h

theorem encode_decodeWire (c : WireContext) (now : Nat) (b : Byte) : encode c now (decodeWire c b) = some (.wire c b) := by
  simp [encode]

/-- Settles O56: a wire row has no line, so `encode` is `encodeWire` there, and `encodeWire` and `decodeWire` invert each other. -/
theorem wireByteDecodesToEncodedRow : Obligations.WireByteDecodesToEncodedRow := by
  intro c now i b
  constructor
  · intro h
    exact congrArg Except.ok (decodeWire_of_encodeWire (encodeWire_of_encode h))
  · intro h
    have hi : decodeWire c b = i := Except.ok.inj h
    rw [← hi]
    exact encode_decodeWire c now b

/-- Settles O57: each byte is evaluated in its context. -/
theorem selectorBytesDecode : Obligations.SelectorBytesDecode := by
  unfold Obligations.SelectorBytesDecode
  decide

end Sys2Proof
end

section
/-!
The proof of O40: the value of a raw word by its kind (30_encoding.md R104).
-/

namespace Sys2Proof

/-- Sign extension of a word of `w` bytes subtracts `2 ^ (8 w)` where the top bit is set (43_command_codec.md R216). -/
theorem Raw.toInt_eq (r : Raw) :
    r.toInt = if r.toNat < 2 ^ (8 * r.width - 1) then (r.toNat : Int) else (r.toNat : Int) - 2 ^ (8 * r.width) := by
  cases r <;> simp only [Raw.toInt, Raw.toNat, Raw.width, BitVec.toInt_eq_toNat_cond] <;> split_ifs <;> omega

/-- A fixed-point value is the exact quotient (43_command_codec.md R217). -/
theorem fixValue_eq_div {d : Nat} (hd : 1 ≤ d) (r : Raw) : fixValue d r = (r.toInt : Rat) / (d : Rat) := by
  rw [fixValue, if_neg (Nat.one_le_iff_ne_zero.mp hd), Rat.mkRat_eq_div]

/-- Settles O40: each kind's value is read off `fieldValue`; sign extension and the quotient are `Raw.toInt_eq` and
`fixValue_eq_div`. -/
theorem fieldValuesByKind : Obligations.FieldValuesByKind := by
  intro k r signed _ hs
  have hsigned : signed = r.toInt := hs.trans r.toInt_eq.symm
  subst hsigned
  refine ⟨?unsigned, ?signed, ?bool8, ?fixedPoint, ?f32auto⟩
  case unsigned => rintro (rfl | rfl | rfl) <;> rfl
  case signed => rintro (rfl | rfl | rfl) <;> rfl
  case bool8 => rintro rfl; rfl
  case fixedPoint => rintro d hd (rfl | rfl) <;> exact congrArg FieldValue.rat (fixValue_eq_div hd r)
  case f32auto => rintro v rfl rfl; simp [fieldValue, Raw.toNat]

end Sys2Proof
end

section
/-!
The proofs of O9, O11 and O12, about the checksum function. `crcStep` is linear over xor in the accumulator and the byte together,
which gives its table form (40_checksum.md R132), and for a fixed byte or a fixed accumulator it is injective, which gives the
detection of a changed byte (R142).
-/

namespace Sys2Proof.Machine

/-! ## One shift -/

theorem crcShift_of_top_clear {c : Word16} (h : c.getLsbD 15 = false) : crcShift c = c <<< 1 := by
  rw [crcShift, if_neg (Bool.eq_false_iff.mp h)]

theorem crcShift_of_top_set {c : Word16} (h : c.getLsbD 15 = true) : crcShift c = (c <<< 1) ^^^ 0x1021 := by
  rw [crcShift, if_pos h]

/-- A shift is linear: the polynomial is subtracted as often on both sides, modulo 2. -/
theorem crcShift_xor (c d : Word16) : crcShift (c ^^^ d) = crcShift c ^^^ crcShift d := by
  have htop : (c ^^^ d).getLsbD 15 = (c.getLsbD 15 ^^ d.getLsbD 15) := BitVec.getLsbD_xor
  cases hc : c.getLsbD 15 <;> cases hd : d.getLsbD 15 <;> rw [hc, hd] at htop
  · rw [crcShift_of_top_clear htop, crcShift_of_top_clear hc, crcShift_of_top_clear hd, BitVec.shiftLeft_xor_distrib]
  · rw [crcShift_of_top_set htop, crcShift_of_top_clear hc, crcShift_of_top_set hd, BitVec.shiftLeft_xor_distrib,
      BitVec.xor_assoc]
  · rw [crcShift_of_top_set htop, crcShift_of_top_set hc, crcShift_of_top_clear hd, BitVec.shiftLeft_xor_distrib]
    ac_rfl
  · rw [crcShift_of_top_clear htop, crcShift_of_top_set hc, crcShift_of_top_set hd, BitVec.shiftLeft_xor_distrib]
    calc c <<< 1 ^^^ d <<< 1 = c <<< 1 ^^^ d <<< 1 ^^^ (0x1021 ^^^ 0x1021) := by rw [BitVec.xor_self, BitVec.xor_zero]
      _ = c <<< 1 ^^^ 0x1021 ^^^ (d <<< 1 ^^^ 0x1021) := by ac_rfl

/-- The polynomial is odd, so the lowest bit after a shift is the bit shifted out. -/
theorem crcShift_getLsbD_zero (c : Word16) : (crcShift c).getLsbD 0 = c.getLsbD 15 := by
  cases h : c.getLsbD 15
  · simp [crcShift_of_top_clear h]
  · simp [crcShift_of_top_set h]

/-- No two accumulators shift to the same one: the lowest bit tells whether the polynomial was subtracted. -/
theorem crcShift_injective : Function.Injective crcShift := by
  intro c d h
  have htop : c.getLsbD 15 = d.getLsbD 15 := by rw [← crcShift_getLsbD_zero, h, crcShift_getLsbD_zero]
  have hshift : c <<< 1 = d <<< 1 := by
    cases hd : d.getLsbD 15
    · rwa [crcShift_of_top_clear (htop.trans hd), crcShift_of_top_clear hd] at h
    · rwa [crcShift_of_top_set (htop.trans hd), crcShift_of_top_set hd, BitVec.xor_left_inj] at h
  refine BitVec.eq_of_getLsbD_eq fun i hi => ?_
  obtain rfl | hlt : i = 15 ∨ i < 15 := by omega
  · exact htop
  · have hi' : i + 1 < 16 := by omega
    simpa [hi, hi'] using congrArg (fun w => w.getLsbD (i + 1)) hshift

/-! ## The eight shifts of a step -/

/-- The shifts of a step: 40_checksum.md R131. -/
theorem crcStep_eq_iterate (c : Word16) (b : Byte) : crcStep c b = crcShift^[8] (c ^^^ (b.setWidth 16 <<< 8)) := rfl

theorem crcShift_iterate_xor (n : Nat) (c d : Word16) : crcShift^[n] (c ^^^ d) = crcShift^[n] c ^^^ crcShift^[n] d :=
  Function.Semiconj₂.iterate crcShift_xor n c d

/-- Shifts of a low byte subtract no polynomial until its bits reach the top. -/
theorem crcShift_iterate_low {n : Nat} (hn : n ≤ 8) (b : Byte) : crcShift^[n] (b.setWidth 16) = b.setWidth 16 <<< n := by
  induction n with
  | zero => simp
  | succ n ih =>
    have htop : (b.setWidth 16 <<< n).getLsbD 15 = false := by
      simp [show 8 ≤ 15 - n by omega]
    rw [Function.iterate_succ_apply', ih (by omega), crcShift_of_top_clear htop, BitVec.shiftLeft_add]

/-! ## The table form -/

/-- The step's argument, as its high byte with the input byte and its low byte. -/
theorem crcStep_argument_split (c : Word16) (b : Byte) :
    c ^^^ (b.setWidth 16 <<< 8) = ((c.extractLsb' 8 8 ^^^ b).setWidth 16 <<< 8) ^^^ (c.setWidth 8).setWidth 16 := by
  refine BitVec.eq_of_getLsbD_eq fun i hi => ?_
  by_cases h : i < 8
  · simp [h, hi]
  · simp [h, hi, show i - 8 < 8 by omega, show 8 + (i - 8) = i by omega]

/-- Eight shifts bring the low byte to the top, as they bring the whole word's. -/
theorem setWidth_low_shiftLeft_eight (c : Word16) : (c.setWidth 8).setWidth 16 <<< 8 = c <<< 8 := by
  refine BitVec.eq_of_getLsbD_eq fun i hi => ?_
  simp [show i - 8 < 8 by omega, show i - 8 < 16 by omega]

theorem crcTable_eq_iterate (i : Byte) : crcTable i = crcShift^[8] (i.setWidth 16 <<< 8) := by
  simp [crcTable, crcStep_eq_iterate]

/-- The table form (40_checksum.md R132): the high byte goes through the table, and the low byte only moves up. -/
theorem crcStep_eq_table (c : Word16) (b : Byte) : crcStep c b = crcTable (c.extractLsb' 8 8 ^^^ b) ^^^ (c <<< 8) := by
  rw [crcStep_eq_iterate, crcStep_argument_split, crcShift_iterate_xor, ← crcTable_eq_iterate, crcShift_iterate_low le_rfl,
    setWidth_low_shiftLeft_eight]

/-- Settles O9: the table form by linearity; the sixteen entries are evaluated. -/
theorem crcStepEqualsTableForm : Obligations.CrcStepEqualsTableForm :=
  ⟨crcStep_eq_table, by decide +kernel⟩

/-! ## Detection of a changed byte -/

theorem crcStep_injective_acc (b : Byte) : Function.Injective fun c => crcStep c b := fun _ _ h =>
  (BitVec.xor_left_inj _).mp (crcShift_injective.iterate 8 h)

theorem crcStep_injective_byte (c : Word16) : Function.Injective (crcStep c) := by
  intro a b h
  have hshift : a.setWidth 16 <<< 8 = b.setWidth 16 <<< 8 := (BitVec.xor_right_inj c).mp (crcShift_injective.iterate 8 h)
  refine BitVec.eq_of_getLsbD_eq fun i hi => ?_
  simpa [show i + 8 < 16 by omega] using congrArg (fun w => w.getLsbD (i + 8)) hshift

theorem checksum_cons (init : Word16) (b : Byte) (p : List Byte) : checksum init (b :: p) = checksum (crcStep init b) p := rfl

/-- Different accumulators stay different, whatever bytes follow. -/
theorem checksum_injective_init (p : List Byte) : Function.Injective fun init => checksum init p := by
  induction p with
  | nil => exact fun _ _ h => h
  | cons b p ih => exact fun _ _ h => crcStep_injective_acc b (ih h)

/-- A change of one byte, whatever it is, changes the checksum. -/
theorem checksum_modify_ne {f : Byte → Byte} (hf : ∀ b, f b ≠ b) {p : List Byte} {i : Nat} (hi : i < p.length)
    (init : Word16) : checksum init (p.modify i f) ≠ checksum init p := by
  induction p generalizing i init with
  | nil => simp at hi
  | cons b p ih =>
    cases i with
    | zero => exact fun h => hf b (crcStep_injective_byte init (checksum_injective_init p h))
    | succ i => exact ih (by simpa using hi) (crcStep init b)

theorem xor_twoPow_ne {k : Nat} (hk : k < 8) (b : Byte) : b ^^^ BitVec.twoPow 8 k ≠ b := by
  intro h
  simpa [hk] using congrArg (fun w => w.getLsbD k) h

/-- Settles O11: a flipped bit is a changed byte, and the steps are injective in their byte and in their accumulator. -/
theorem singleBitFlipChangesChecksum : Obligations.SingleBitFlipChangesChecksum :=
  fun init _ _ _ hi hk => checksum_modify_ne (xor_twoPow_ne hk) hi init

/-! ## Check values -/

/-- Settles O12: closed values, each evaluated. -/
theorem crcCheckValues : Obligations.CrcCheckValues := by
  unfold Obligations.CrcCheckValues
  decide +kernel

end Sys2Proof.Machine
end

section
/-!
The proofs of O5 to O8, O10 and O49, about the engine's host operations: what each does, runs of CRC_FEED, and that no other
instruction writes the accumulator.
-/

namespace Sys2Proof.Machine

open Sys2Proof.Claims

variable {s t : State}

/-! ## The four operations -/

/-- A guarded run is run on a ready block, and refused while a call is open (60_exceptions.md R291, R300). -/
theorem hostOp_runs_or_refused (s run : State) :
    (Ready s → Host.Outcome.next (hostOp s run) = (.next run : Result)) ∧
      (s.call ≠ .none → Host.Outcome.next (hostOp s run) = (.next (refuse s) : Result)) :=
  ⟨fun h => congrArg _ (hostOp_ready h.1 h.2), fun h => congrArg _ (hostOp_refused (.inr h))⟩

/-- Settles O5: CRC_CLEAR is a host operation whose run is the write of 40_checksum.md R135. -/
theorem crcClearLoadsInitialValue : Obligations.CrcClearLoadsInitialValue :=
  fun s => hostOp_runs_or_refused s _

/-- Settles O6: CRC_FEED is a host operation whose run is one step; the corner cases are evaluated. -/
theorem crcFeedStepsAccumulator : Obligations.CrcFeedStepsAccumulator :=
  ⟨fun _ s => hostOp_runs_or_refused s _, by decide +kernel⟩

/-- Settles O7: CRC_READ is a host operation whose run only answers; the example is evaluated. -/
theorem crcReadAnswersAccumulator : Obligations.CrcReadAnswersAccumulator :=
  ⟨fun s => hostOp_runs_or_refused s _, by decide +kernel⟩

/-- Settles O8: CRC_COMPUTE is a host operation whose run only answers; the examples are evaluated. -/
theorem crcComputeAnswersChecksum : Obligations.CrcComputeAnswersChecksum :=
  ⟨fun _ s => hostOp_runs_or_refused s _, fun _ => rfl, by decide +kernel⟩

/-! ## A run of CRC_FEED -/

theorem execAll_cons_of_next {i : Instr} (h : exec i s = .next t) (is : List Instr) : execAll (i :: is) s = execAll is t := by
  simp [execAll, h]

/-- The accumulator stepped through the bytes, each answered. -/
def bytesFed (bytes : List Byte) (s : State) : State :=
  { s with
    crc_acc := checksum s.crc_acc bytes
    responses := s.responses ++ List.replicate bytes.length .done }

theorem bytesFed_cons (b : Byte) (bytes : List Byte) (s : State) :
    bytesFed (b :: bytes) s = bytesFed bytes (respond .done { s with crc_acc := crcStep s.crc_acc b }) := by
  simp [bytesFed, respond, checksum_cons, List.replicate_succ]

/-- CRC_FEED of each byte runs to the end and does nothing but `bytesFed`. -/
theorem execAll_crcFeed (bytes : List Byte) (h : Ready s) : execAll (bytes.map .crcFeed) s = .next (bytesFed bytes s) := by
  induction bytes generalizing s with
  | nil => simp [execAll, bytesFed, checksum]
  | cons b bytes ih =>
    have hfeed : exec (.crcFeed b) s = .next (respond .done { s with crc_acc := crcStep s.crc_acc b }) :=
      (crcFeedStepsAccumulator.1 b s).1 h
    rw [List.map_cons, execAll_cons_of_next hfeed, bytesFed_cons]
    exact ih h

/-- Settles O10: CRC_CLEAR starts the accumulator at the initial value, and the feeds step it as `checksum` does. -/
theorem crcFedByteByByteEqualsWhole : Obligations.CrcFedByteByByteEqualsWhole := by
  intro bytes s h
  have hclear : exec .crcClear s = .next (respond .done { s with crc_acc := s.cfg_crc_init }) :=
    (crcClearLoadsInitialValue s).1 h
  refine ⟨bytesFed bytes (respond .done { s with crc_acc := s.cfg_crc_init }), ?run, rfl, ?read⟩
  case run => exact (execAll_cons_of_next hclear _).trans (execAll_crcFeed bytes h)
  case read => exact (crcReadAnswersAccumulator.1 _).1 h

/-! ## Who writes the accumulator -/

@[simp] theorem failCall_crc_acc (o : OutcomeCode) (s : State) : (failCall o s).crc_acc = s.crc_acc := by
  rw [failCall_frame]

theorem Decoded.crc_acc (h : Decoded s t) : t.crc_acc = s.crc_acc := by
  rw [h.frame]

theorem RxEffect.crc_acc (h : RxEffect s (.next t)) : t.crc_acc = s.crc_acc := by
  rw [h.frame]

/-- An instruction leaves the accumulator, or is CRC_CLEAR, CRC_FEED or CONFIGURE (40_checksum.md R134, 10_state.md R41). -/
theorem ExecEffect.crc_acc_eq_or_engine {i : Instr} (h : ExecEffect s i t) :
    t.crc_acc = s.crc_acc ∨ i.mnemonic ∈ [Mnemonic.crcClear, .crcFeed, .configure] := by
  cases h with
  | configured => exact .inr (by simp [Instr.mnemonic])
  | accumulatorCleared => exact .inr (by simp [Instr.mnemonic])
  | accumulatorFed => exact .inr (by simp [Instr.mnemonic])
  | decode p t _ _ ht => exact .inl ht.crc_acc
  | timedOut => exact .inl (failCall_crc_acc ..)
  | byteTaken time b rest t _ _ _ ht => exact .inl ht.crc_acc
  | receiverRow r t ht => exact .inl (runRxRow_next_effect ht).crc_acc
  | decodeRow i t _ ht => exact .inl ht.crc_acc
  | _ => exact .inl rfl

/-- Settles O49: by the effects of the instructions, only the engine and CONFIGURE write the accumulator. -/
theorem accumulatorWrittenOnlyByEngine : Obligations.AccumulatorWrittenOnlyByEngine := by
  intro i s t h hi
  exact (exec_effect h).crc_acc_eq_or_engine.resolve_right hi

end Sys2Proof.Machine
end

section
/-!
The proof of O59. A machine stops only where the receiver takes a byte it has no transition or no room for, and in an open call the
invariant rules out both.
-/

namespace Sys2Proof.Machine

variable {s : State}

/-- In an open call the receiver is not in the state 41_frame_receiver.md R161 gives no transitions. -/
theorem Inv.rx_state_ne_awaitLongLength (h : Inv s) (hc : s.call ≠ .none) : s.rx_state ≠ .awaitLongLength := by
  intro hs
  simpa only [receiverInv, hs] using h.receiver hc

/-- In an open call `rx_buf` has room for one more byte (20_memory.md R79). -/
theorem Inv.room (h : Inv s) (hc : s.call ≠ .none) : s.rx_count < 260 := by
  have hr := h.receiver hc
  cases hs : s.rx_state with
  | awaitLongLength => exact absurd hs (h.rx_state_ne_awaitLongLength hc)
  | _ => simp only [receiverInv, hs] at hr; omega

/-- A receiver row that stops found no room, so with room it answers. -/
theorem RxEffect.answers {r : Result} (he : RxEffect s r) (hr : s.rx_count < 260) : ∃ t, r = .next t := by
  cases he with
  | noRoom h => exact absurd hr (Nat.not_lt.mpr h)
  | _ => exact ⟨_, rfl⟩

theorem rxRow_of_no_call (h : s.call = .none) (r : RxRow) (run : Result) : rxRow r s run = .next (refuse s) := by
  have hx : rxContext s = none := rxContext_eq_none_iff.mpr (.inl h)
  simp [rxRow, rxSelects, hx]

/-- With no call open a receiver row is no input of the block (log 8). -/
theorem runRxRow_of_no_call (h : s.call = .none) (r : RxRow) : runRxRow r s = .next (refuse s) := by
  cases r <;> exact rxRow_of_no_call h _ _

theorem runRxRow_answers (h : Inv s) (r : RxRow) : ∃ t, runRxRow r s = .next t := by
  by_cases hc : s.call = .none
  · exact ⟨_, runRxRow_of_no_call hc r⟩
  · exact (runRxRow_effect r s).answers (h.room hc)

theorem execPoll_answers (h : Inv s) (time : Nat) : ∃ t, execPoll time s = .next t := by
  rcases execPoll_cases time s with e | ⟨-, -, e⟩ | ⟨hc, hs, -⟩ | ⟨b, rest, c, -, -, -, -, e⟩
  · exact ⟨_, e⟩
  · exact ⟨_, e⟩
  · exact absurd hs (h.rx_state_ne_awaitLongLength hc)
  · rw [e]
    exact runRxRow_answers (s := setFifo rest s) (h.of_invPart_eq rfl) _

theorem execDecode_answers (p : List Byte) (s : State) : ∃ t, execDecode p s = .next t := by
  rcases execDecode_cases p s with e | ⟨-, -, -, e⟩ | ⟨-, -, -, t, e, -⟩ <;> exact ⟨_, e⟩

/-- Only POLL and the receiver rows can stop; what they need to answer is in the invariant. -/
theorem exec_answers (h : Inv s) (i : Instr) : ∃ t, exec i s = .next t := by
  cases i with
  | decode p => exact execDecode_answers p s
  | poll time => exact execPoll_answers h time
  | startShort => exact runRxRow_answers h .startShort
  | startLong => exact runRxRow_answers h .startLong
  | startOther b => exact runRxRow_answers h (.startOther b)
  | length b => exact runRxRow_answers h (.length b)
  | data b => exact runRxRow_answers h (.data b)
  | terminator => exact runRxRow_answers h .terminator
  | notTerminator b => exact runRxRow_answers h (.notTerminator b)
  | identOk => exact (execIdentOk_decoded s).imp fun _ ht => ht.1
  | _ => exact ⟨_, rfl⟩

/-- Settles O59: a step takes a line, which the invariant does not read, and every instruction answers. -/
theorem invariantStateNeverStops : Obligations.InvariantStateNeverStops := by
  refine fun s h => ⟨?step, exec_answers h⟩
  rcases step_cases s with ⟨-, e⟩ | ⟨l, rest, -, -, e⟩ | ⟨l, rest, r, -, -, -, e⟩ | ⟨l, rest, i, -, -, -, e⟩
  · exact ⟨_, e⟩
  · exact ⟨_, e⟩
  · exact ⟨_, e⟩
  · rw [e]
    exact exec_answers (s := lineTaken l rest s) (h.of_invPart_eq rfl) i

end Sys2Proof.Machine
end

section
/-!
The proofs of O15 to O21, about RX_RECEIVE, POLL and the receiver rows: where a row's byte selects it, the row is its meaning, and POLL
in time is the row its byte selects.
-/

namespace Sys2Proof.Machine

open Sys2Proof.Claims

variable {s : State}

/-! ## Ending a call, in the statements' terms -/

theorem failCall_eq_callEnded (o : OutcomeCode) (h : s.call ≠ .none) : failCall o s = callEnded o s := by
  cases hc : s.call with
  | none => exact absurd hc h
  | _ => simp only [failCall, callEnded, hc]; rfl

/-! ## RX_RECEIVE -/

/-- Settles O15: RX_RECEIVE is a host operation whose run is one of the two by the transport's binding. -/
theorem rxReceiveOpensCall : Obligations.RxReceiveOpensCall := by
  intro s
  obtain ⟨hrun, hrefused⟩ := hostOp_runs_or_refused s
    (if s.transport_bound = false then respond (.received .noTransport 0 []) s else openCall .receive s)
  refine ⟨fun h hb => ?unbound, fun h hb => ?bound, hrefused⟩
  case unbound => exact (hrun h).trans (by rw [if_pos hb]; rfl)
  case bound => exact (hrun h).trans (by rw [if_neg (by simp [hb])]; rfl)

/-! ## POLL -/

theorem exec_rxRow_toInstr (r : RxRow) (s : State) : exec r.toInstr s = runRxRow r s := by
  cases r <;> rfl

theorem execPoll_timeout {time : Nat} (hc : s.call ≠ .none) (hd : s.rx_deadline ≤ time) :
    execPoll time s = .next (failCall .timeout s) := by
  rw [execPoll, if_neg hc, if_pos hd]

theorem execPoll_no_byte {time : Nat} (hc : s.call ≠ .none) (hd : time < s.rx_deadline) (hf : s.rx_fifo = []) :
    execPoll time s = .next s := by
  rw [execPoll, if_neg hc, if_neg (Nat.not_le.mpr hd), hf]

theorem execPoll_byte {time : Nat} {b : Byte} {rest : List Byte} (hc : s.call ≠ .none) (hd : time < s.rx_deadline)
    (hf : s.rx_fifo = b :: rest) : execPoll time s = takeByte b rest s := by
  rw [execPoll, if_neg hc, if_neg (Nat.not_le.mpr hd), hf]

/-- POLL in time runs the instruction the waiting byte decodes to where the receiver is (41_frame_receiver.md R152). -/
theorem exec_poll_byte {time : Nat} {b : Byte} {rest : List Byte} {c : RxContext} (hc : s.call ≠ .none)
    (hd : time < s.rx_deadline) (hf : s.rx_fifo = b :: rest) (hx : rxContext s = some c) :
    exec (.poll time) s = exec (decodeWire (.rx c) b) { s with rx_fifo := rest } := by
  refine (execPoll_byte hc hd hf).trans ?_
  rw [takeByte, hx]
  exact (exec_rxRow_toInstr ..).symm

/-- Settles O16: POLL's tests in their order; a byte taken runs the row of its context. -/
theorem pollTestsDeadlineThenTakesOneByte : Obligations.PollTestsDeadlineThenTakesOneByte := by
  intro time s
  refine ⟨fun hc => ?noCall, fun hc hd => ?late, execPoll_no_byte, fun b rest hc hd hf => ?byte⟩
  case noCall => exact if_pos hc
  case late => exact (execPoll_timeout hc hd).trans (congrArg _ (failCall_eq_callEnded _ hc))
  case byte =>
    refine ⟨fun hs => ?start, fun hs => ?length, fun hs hn => ?middle, fun hs hl => ?last, fun hs => ?stop⟩
    case start => exact exec_poll_byte hc hd hf (rxContext_start_iff.mpr ⟨hc, hs⟩)
    case length => exact exec_poll_byte hc hd hf (rxContext_length_iff.mpr ⟨hc, hs⟩)
    case middle => exact exec_poll_byte hc hd hf (rxContext_middle_iff.mpr ⟨hc, hs, hn⟩)
    case last => exact exec_poll_byte hc hd hf (rxContext_last_iff.mpr ⟨hc, hs, hl⟩)
    case stop =>
      have hx : rxContext s = none := rxContext_eq_none_iff.mpr (.inr hs)
      exact (execPoll_byte hc hd hf).trans (by rw [takeByte, hx])

/-! ## The rows of AwaitStart and AwaitShortLength -/

theorem decodeRx_startOther {b : Byte} (h2 : b ≠ 0x02) (h3 : b ≠ 0x03) : decodeRx .start b = .startOther b := by
  rw [decodeRx, if_neg h2, if_neg h3]

/-- Settles O18: each row is selected by its byte in AwaitStart. -/
theorem startByteRows : Obligations.StartByteRows := by
  intro s hc hs
  have hx : rxContext s = some .start := rxContext_start_iff.mpr ⟨hc, hs⟩
  refine ⟨rxRow_selected hx .startShort rfl _, ?startLong, fun b h2 h3 => ?startOther⟩
  case startLong =>
    exact (rxRow_selected hx .startLong rfl _).trans (congrArg _ (failCall_eq_callEnded _ hc))
  case startOther => exact rxRow_selected hx (.startOther b) (decodeRx_startOther h2 h3) _

/-- Settles O19: every byte selects the row in AwaitShortLength. -/
theorem lengthByteRow : Obligations.LengthByteRow := by
  intro b s hc hs
  exact rxRow_selected (rxContext_length_iff.mpr ⟨hc, hs⟩) (.length b) rfl _

/-! ## The rows of Accumulating -/

theorem decodeRx_notTerminator {b : Byte} (h : b ≠ 0x03) : decodeRx .last b = .notTerminator b :=
  if_neg h

/-- What DATA and NOT_TERMINATOR do where they are selected and `rx_buf` has room: 41_frame_receiver.md R158 to R160. -/
theorem appendRow_eq (b : Byte) (hc : s.call ≠ .none) (hr : s.rx_count < 260) :
    withRoom s (.next (keepOrOverflow (rxAppend b s))) = .next
      (if s.rx_count + 1 = 260 then
        callEnded .bufferOverflow { byteAppended b s with diag_log := logged (.frameRejected .bufferOverflow 0) s }
      else byteAppended b s) := by
  rw [withRoom_room hr, keepOrOverflow_rxAppend, failCall_eq_callEnded]
  · rfl
  · exact hc

/-- Settles O20: in Accumulating a byte that completes nothing selects DATA or NOT_TERMINATOR, and both append it. -/
theorem accumulatedByteRows : Obligations.AccumulatedByteRows := by
  intro b s hc hs
  have hdata (hn : s.rx_count + 1 ≠ s.rx_expected) :
      exec (.data b) s = withRoom s (.next (keepOrOverflow (rxAppend b s))) :=
    rxRow_selected (rxContext_middle_iff.mpr ⟨hc, hs, hn⟩) (.data b) rfl _
  refine ⟨fun hr hn => ?data, fun hr hl hb => ?notTerminator, fun hr hn => ?noRoom⟩
  case data => exact (hdata hn).trans (appendRow_eq b hc hr)
  case notTerminator =>
    have hx : rxContext s = some .last := rxContext_last_iff.mpr ⟨hc, hs, hl⟩
    exact (rxRow_selected hx (.notTerminator b) (decodeRx_notTerminator hb) _).trans (appendRow_eq b hc hr)
  case noRoom => exact (hdata hn).trans (if_neg (Nat.not_lt.mpr hr))

/-- Settles O17: POLL in time is the row its byte selects, and what that row does is O18, O19 or O20. -/
theorem pollTakesByteAndMovesOn : Obligations.PollTakesByteAndMovesOn := by
  intro time b rest s hc hd hf
  refine ⟨fun hs hb => ?startShort, fun hs h2 h3 => ?startOther, fun hs => ?length, fun hs hr hb => ?appended⟩
  case startShort =>
    subst hb
    obtain ⟨hrow, -, -⟩ := startByteRows { s with rx_fifo := rest } hc hs
    exact (exec_poll_byte hc hd hf (rxContext_start_iff.mpr ⟨hc, hs⟩)).trans hrow
  case startOther =>
    obtain ⟨-, -, hrow⟩ := startByteRows { s with rx_fifo := rest } hc hs
    rw [exec_poll_byte hc hd hf (rxContext_start_iff.mpr ⟨hc, hs⟩), decodeWire, decodeRx_startOther h2 h3]
    exact hrow b h2 h3
  case length =>
    have hrow := lengthByteRow b { s with rx_fifo := rest } hc hs
    exact (exec_poll_byte hc hd hf (rxContext_length_iff.mpr ⟨hc, hs⟩)).trans hrow
  case appended =>
    have hroom : s.rx_count < 260 := by omega
    have hkept : s.rx_count + 1 ≠ 260 := by omega
    obtain ⟨hdata, hnotTerminator, -⟩ := accumulatedByteRows b { s with rx_fifo := rest } hc hs
    by_cases hl : s.rx_count + 1 = s.rx_expected
    · have h3 : b ≠ 0x03 := hb.resolve_left (not_not_intro hl)
      rw [exec_poll_byte hc hd hf (rxContext_last_iff.mpr ⟨hc, hs, hl⟩), decodeWire, decodeRx_notTerminator h3]
      exact (hnotTerminator hroom hl h3).trans (congrArg _ (if_neg hkept))
    · rw [exec_poll_byte hc hd hf (rxContext_middle_iff.mpr ⟨hc, hs, hl⟩)]
      exact (hdata hroom hl).trans (congrArg _ (if_neg hkept))

/-! ## TERMINATOR -/

theorem rxSlice_payload_eq (s : State) : rxSlice s 2 s.rx_len.toNat = framePayload s := rfl

@[simp] theorem framePayload_length (s : State) : (framePayload s).length = s.rx_len.toNat :=
  rxSlice_length s 2 _

/-- The integrity check of 41_frame_receiver.md R162, on the frame's payload and checksum as 20_memory.md R71 places them. -/
theorem integrityCheck_frame (s : State) :
    integrityCheck s =
      if checksum s.cfg_crc_init (framePayload s) = frameChecksum s then
        acceptFrame (framePayload s) (emit (.frameAccepted s.rx_len) s)
      else
        .next (failCall .checksumMismatch
          (emit (.checksumMismatch (checksum s.cfg_crc_init (framePayload s)) (frameChecksum s)) s)) := by
  have hsum : frameChecksum s = rxRead s (s.rx_len.toNat + 2) ++ rxRead s (s.rx_len.toNat + 2 + 1) := by
    rw [frameChecksum, Nat.add_comm 2, Nat.add_comm 3]
  rw [integrityCheck_eq, rxSlice_payload_eq, hsum]

/-- A Receive call ends with the accepted payload, which the payload buffer holds whole (41_frame_receiver.md R151). -/
theorem acceptFrame_receive (hc : s.call = .receive) :
    acceptFrame (framePayload s) (emit (.frameAccepted s.rx_len) s) = .next
      { frameAccepted s with
        payload := framePayload s
        responses := s.responses ++ [.received .ok s.rx_len.toNat (framePayload s)] } := by
  have hfits : (framePayload s).length ≤ 255 := by
    have := s.rx_len.isLt
    rw [framePayload_length]; omega
  simp only [acceptFrame, emit_call, hc, loadPayload_of_fits hfits, framePayload_length]
  rfl

/-- Settles O21: the terminator is appended, and the integrity check runs on the frame it completes. -/
theorem terminatorRunsIntegrityCheck : Obligations.TerminatorRunsIntegrityCheck := by
  rintro s a hc hs hl hr rfl
  have hx : rxContext s = some .last := rxContext_last_iff.mpr ⟨hc, hs, hl⟩
  have hrow : exec .terminator s = integrityCheck (byteAppended 0x03 s) :=
    (rxRow_selected hx .terminator rfl _).trans (withRoom_room hr)
  rw [hrow, integrityCheck_frame]
  refine ⟨fun hne => ?mismatch, fun heq hcall => ?accepted⟩
  case mismatch => exact (if_neg hne).trans (congrArg _ (failCall_eq_callEnded _ hc))
  case accepted => exact (if_pos heq).trans (acceptFrame_receive hcall)

end Sys2Proof.Machine
end

section
/-!
The proofs of O13 and O14, about the frame `pack` builds and TX_SEND, which offers it whole.
-/

namespace Sys2Proof.Machine

open Sys2Proof.Claims

/-- The frame of 42_frame_transmitter.md R190 as 30_encoding.md R90 lays it out. -/
theorem pack_eq_frameBytes (init : Word16) (p : List Byte) : pack init p = frameBytes p (checksum init p) := by
  rw [pack, bigEndian_two, frameBytes, List.append_assoc]
  rfl

@[simp] theorem frameBytes_length (p : List Byte) (c : Word16) : (frameBytes p c).length = p.length + 5 := by
  simp only [frameBytes, List.length_append, List.length_cons, List.length_nil]
  omega

@[simp] theorem pack_length (init : Word16) (p : List Byte) : (pack init p).length = p.length + 5 := by
  rw [pack_eq_frameBytes, frameBytes_length]

/-- Settles O13: the big-endian checksum is its two bytes, and the sizes are counted. -/
theorem packBuildsShortFrame : Obligations.PackBuildsShortFrame := by
  intro init p hp
  exact ⟨pack_eq_frameBytes init p, pack_length init p, by rw [pack_length]; omega⟩

/-- Settles O14: TX_SEND is a host operation whose run is one of three, and the transport's answer is k. -/
theorem txSendOffersWholeFrame : Obligations.TxSendOffersWholeFrame := by
  intro p s
  obtain ⟨hrun, hrefused⟩ := hostOp_runs_or_refused s
    (if s.transport_bound = false then respond (.sent .noTransport 0) s
      else if Config.plMax < p.length then respond (.sent .payloadTooLong 0) s
      else respond (.sent .ok (drawTxAccept (pack s.cfg_crc_init p).length s)) (transmit (pack s.cfg_crc_init p) s))
  refine ⟨fun h hb => ?unbound, fun h hb hp => ?tooLong, fun h hb hp => ?sent, hrefused⟩
  case unbound => exact (hrun h).trans (by rw [if_pos hb]; rfl)
  case tooLong => exact (hrun h).trans (by rw [if_neg (by simp [hb]), if_pos hp]; rfl)
  case sent =>
    refine ⟨drawTxAccept (p.length + 5) s, drawTxAccept_le _ s, fun _ _ ha => drawTxAccept_cons _ ha, (hrun h).trans ?_⟩
    rw [if_neg (by simp [hb]), if_neg (Nat.not_lt.mpr hp), transmit, pack_length, pack_eq_frameBytes]
    rfl

end Sys2Proof.Machine
end

section
/-!
The proofs of O24 and O25, about the receiving of a whole frame. While the receiver takes a frame's bytes they stand in `rx_buf`
from index 0 on (`takenBytes`); the terminator finds the whole frame there, and the integrity check reads its payload and its
checksum back.
-/

namespace Sys2Proof.Machine

open Sys2Proof.Claims

variable {s : State}

/-! ## Runs -/

theorem execAll_singleton (i : Instr) (s : State) : execAll [i] s = exec i s := by
  unfold execAll
  cases exec i s <;> rfl

/-- Bytes arrive one after another at the end of the receive queue, whatever runs next. -/
theorem execAll_arrive_append (bs : List Byte) (is : List Instr) (s : State) :
    execAll (bs.map .arrive ++ is) s = execAll is { s with rx_fifo := s.rx_fifo ++ bs } := by
  induction bs generalizing s with
  | nil => simp
  | cons b bs ih =>
    rw [List.map_cons, List.cons_append, execAll_cons_of_next (arriveAppendsToReceiveQueue b s), ih]
    simp

/-! ## The bytes of a frame in `rx_buf` -/

/-- The buffer `m` with `bs` stored from index 0 on. -/
def storedBytes (bs : List Byte) (m : Memory) : Memory := bs.zipIdx.foldl (fun m c => Cells.write m c.2 c.1) m

theorem storedBytes_append_singleton (bs : List Byte) (b : Byte) (m : Memory) :
    storedBytes (bs ++ [b]) m = Cells.write (storedBytes bs m) bs.length b := by
  simp [storedBytes, List.zipIdx_append]

theorem read_storedBytes {bs : List Byte} {i : Nat} {b : Byte} (m : Memory) (h : bs[i]? = some b) :
    Cells.read (storedBytes bs m) i = some b := by
  induction bs using List.reverseRecOn with
  | nil => simp at h
  | append_singleton bs c ih =>
    rw [storedBytes_append_singleton]
    obtain ⟨hi, -⟩ := List.getElem?_eq_some_iff.mp h
    obtain hlt | rfl : i < bs.length ∨ i = bs.length := by
      rw [List.length_append, List.length_singleton] at hi
      omega
    · rw [Cells.read_write_other _ _ _ _ hlt.ne]
      exact ih (by rwa [List.getElem?_append_left hlt] at h)
    · rw [Cells.read_write_same]
      rwa [List.getElem?_concat_length] at h

/-! ## Taking the bytes -/

/-- In the call of `s`, the receiver has taken the start byte, the length byte `len` and what else is in `taken`, and `waiting` is
in the receive queue (41_frame_receiver.md R155 to R158). -/
def takenBytes (taken waiting : List Byte) (len : Byte) (s : State) : State :=
  { s with
    rx_state := .accumulating
    rx_buf := storedBytes taken s.rx_buf
    rx_count := taken.length
    rx_expected := len.toNat + 5
    rx_len := len
    rx_fifo := waiting }

theorem byteAppended_takenBytes (b : Byte) (taken waiting : List Byte) (len : Byte) (s : State) :
    byteAppended b (takenBytes taken waiting len s) = takenBytes (taken ++ [b]) waiting len s := by
  simp [byteAppended, takenBytes, storedBytes_append_singleton]

/-- Two POLLs in time take the start byte and the length byte of a waiting frame. -/
theorem execAll_poll_header {τ₁ τ₂ : Nat} {len : Byte} {rest : List Byte} (is : List Instr) (hc : s.call ≠ .none)
    (hs : s.rx_state = .awaitStart) (hf : s.rx_fifo = 0x02 :: len :: rest) (h₁ : τ₁ < s.rx_deadline)
    (h₂ : τ₂ < s.rx_deadline) :
    execAll (.poll τ₁ :: .poll τ₂ :: is) s = execAll is (takenBytes [0x02, len] rest len s) := by
  obtain ⟨hstart, -⟩ := pollTakesByteAndMovesOn τ₁ 0x02 (len :: rest) s hc h₁ hf
  rw [execAll_cons_of_next (hstart hs rfl)]
  obtain ⟨-, -, hlength, -⟩ := pollTakesByteAndMovesOn τ₂ len rest
    { s with
      rx_fifo := len :: rest
      rx_buf := Cells.write s.rx_buf 0 0x02
      rx_count := 1
      rx_state := .awaitShortLength } hc h₂ rfl
  exact execAll_cons_of_next (hlength rfl) is

/-- A POLL in time takes a byte that does not complete the frame. -/
theorem exec_poll_takenBytes {τ : Nat} {b len : Byte} {taken : List Byte} (rest : List Byte) (hc : s.call ≠ .none)
    (hd : τ < s.rx_deadline) (hl : taken.length + 1 < len.toNat + 5) :
    exec (.poll τ) (takenBytes taken (b :: rest) len s) = .next (takenBytes (taken ++ [b]) rest len s) := by
  have hroom : taken.length + 1 < 260 := by
    have := len.isLt
    omega
  obtain ⟨-, -, -, happended⟩ := pollTakesByteAndMovesOn τ b rest (takenBytes taken (b :: rest) len s) hc hd rfl
  refine (happended rfl hroom (.inl hl.ne)).trans (congrArg _ ?_)
  rw [byteAppended_takenBytes]
  rfl

/-- A POLL in time that meets the terminator at its place runs TERMINATOR. -/
theorem exec_poll_terminator {τ : Nat} {len : Byte} {taken : List Byte} (hc : s.call ≠ .none)
    (hd : τ < s.rx_deadline) (hl : taken.length + 1 = len.toNat + 5) :
    exec (.poll τ) (takenBytes taken [0x03] len s) = exec .terminator (takenBytes taken [] len s) :=
  exec_poll_byte (s := takenBytes taken [0x03] len s) hc hd rfl (rxContext_last_iff.mpr ⟨hc, rfl, hl⟩)

/-- One POLL in time per waiting byte takes the rest of a frame, and the last of them runs TERMINATOR. -/
theorem execAll_poll_takenBytes {len : Byte} {taken bs : List Byte} {times : List Nat} (hc : s.call ≠ .none)
    (hd : ∀ τ ∈ times, τ < s.rx_deadline) (hl : taken.length + bs.length + 1 = len.toNat + 5)
    (ht : times.length = bs.length + 1) :
    execAll (times.map .poll) (takenBytes taken (bs ++ [0x03]) len s) =
      exec .terminator (takenBytes (taken ++ bs) [] len s) := by
  induction bs generalizing taken times with
  | nil =>
    obtain ⟨τ, rfl⟩ := List.length_eq_one_iff.mp ht
    rw [List.map_singleton, execAll_singleton, List.append_nil]
    exact exec_poll_terminator hc (hd τ List.mem_cons_self) hl
  | cons b bs ih =>
    rw [List.length_cons] at hl ht
    obtain ⟨τ, times, rfl⟩ := List.exists_cons_of_length_eq_add_one ht
    have hstep := exec_poll_takenBytes (b := b) (bs ++ [0x03]) hc (hd τ List.mem_cons_self)
      (show taken.length + 1 < len.toNat + 5 by omega)
    rw [List.map_cons, List.cons_append, execAll_cons_of_next hstep,
      ih (fun τ' h => hd τ' (List.mem_cons_of_mem _ h)) (by simp; omega) (by simpa using ht)]
    simp

/-! ## A whole frame -/

/-- A frame without its terminator. -/
def frameBody (p : List Byte) (c : Word16) : List Byte :=
  [0x02, BitVec.ofNat 8 p.length] ++ (p ++ [c.extractLsb' 8 8, c.extractLsb' 0 8])

theorem frameBytes_eq_frameBody (p : List Byte) (c : Word16) : frameBytes p c = frameBody p c ++ [0x03] := by
  simp [frameBytes, frameBody]

theorem frameBody_length (p : List Byte) (c : Word16) : (frameBody p c).length = p.length + 4 := by
  simp [frameBody]

theorem toNat_length_byte {p : List Byte} (hp : p.length ≤ 255) : (BitVec.ofNat 8 p.length).toNat = p.length := by
  rw [BitVec.toNat_ofNat]
  exact Nat.mod_eq_of_lt (by omega)

/-- In the call of `s`, the receiver has taken the whole frame of `p` with the checksum `c`. -/
def takenFrame (p : List Byte) (c : Word16) (s : State) : State :=
  takenBytes (frameBytes p c) [] (BitVec.ofNat 8 p.length) s

/-- In the call of `s`, the receiver has taken that frame but for its terminator. -/
def takenBody (p : List Byte) (c : Word16) (s : State) : State :=
  takenBytes (frameBody p c) [] (BitVec.ofNat 8 p.length) s

theorem byteAppended_takenBody (p : List Byte) (c : Word16) (s : State) :
    byteAppended 0x03 (takenBody p c s) = takenFrame p c s := by
  rw [takenBody, byteAppended_takenBytes, ← frameBytes_eq_frameBody]
  rfl

/-- One POLL in time per byte of a waiting frame runs TERMINATOR on the frame without it. -/
theorem execAll_poll_frame {p : List Byte} {c : Word16} {times : List Nat} (hc : s.call ≠ .none)
    (hs : s.rx_state = .awaitStart) (hf : s.rx_fifo = frameBytes p c) (hp : p.length ≤ 255)
    (hd : ∀ τ ∈ times, τ < s.rx_deadline) (ht : times.length = p.length + 5) :
    execAll (times.map .poll) s = exec .terminator (takenBody p c s) := by
  obtain ⟨τ₁, times, rfl⟩ := List.exists_cons_of_length_eq_add_one ht
  obtain ⟨τ₂, times, rfl⟩ := List.exists_cons_of_length_eq_add_one (Nat.succ.inj ht)
  rw [List.forall_mem_cons, List.forall_mem_cons] at hd
  obtain ⟨h₁, h₂, hd⟩ := hd
  rw [frameBytes_eq_frameBody] at hf
  rw [List.map_cons, List.map_cons, execAll_poll_header _ hc hs hf h₁ h₂]
  refine execAll_poll_takenBytes hc hd ?_ ?_
  · rw [toNat_length_byte hp]
    simp
    omega
  · simpa using ht

/-- RX_RECEIVE, the arrival of a whole frame, and one POLL in time per byte run TERMINATOR on the frame without it. -/
theorem execAll_receive_frame {p : List Byte} {times : List Nat} (c : Word16) (h : Ready s) (hb : s.transport_bound = true)
    (hf : s.rx_fifo = []) (hp : p.length ≤ 255) (ht : times.length = p.length + 5)
    (hd : ∀ τ ∈ times, τ < s.now + s.cfg_timeout) :
    execAll (.rxReceive :: (frameBytes p c).map .arrive ++ times.map .poll) s =
      exec .terminator (takenBody p c (openCall .receive s)) := by
  obtain ⟨-, hopen, -⟩ := rxReceiveOpensCall s
  have hfifo : (openCall .receive s).rx_fifo ++ frameBytes p c = frameBytes p c := by
    rw [openCall_rx_fifo, hf, List.nil_append]
  rw [List.cons_append, execAll_cons_of_next (t := openCall .receive s) (hopen h hb), execAll_arrive_append, hfifo]
  exact execAll_poll_frame (s := { openCall .receive s with rx_fifo := frameBytes p c }) nofun rfl rfl hp hd ht

/-! ## What the integrity check reads -/

theorem rxRead_takenFrame {p : List Byte} {c : Word16} {i : Nat} {b : Byte} (h : (frameBytes p c)[i]? = some b) (s : State) :
    rxRead (takenFrame p c s) i = b :=
  rxRead_of_read (read_storedBytes s.rx_buf h)

theorem frameBytes_getElem?_payload {p : List Byte} {j : Nat} (c : Word16) (h : j < p.length) :
    (frameBytes p c)[2 + j]? = some p[j] := by
  simp [frameBytes, Nat.add_comm 2, List.getElem?_append_left h]

/-- The payload read from a frame in `rx_buf` is the one it was built from. -/
theorem framePayload_takenFrame {p : List Byte} (c : Word16) (hp : p.length ≤ 255) (s : State) :
    framePayload (takenFrame p c s) = p := by
  have hlen : (framePayload (takenFrame p c s)).length = p.length :=
    (framePayload_length _).trans (toNat_length_byte hp)
  refine List.ext_getElem hlen fun j _ hj => ?_
  simp only [framePayload, List.getElem_map, List.getElem_range]
  exact rxRead_takenFrame (frameBytes_getElem?_payload c hj) s

theorem extractLsb'_high_append_low (c : Word16) : c.extractLsb' 8 8 ++ c.extractLsb' 0 8 = c := by
  have happend : c.extractLsb' 8 8 ++ c.extractLsb' 0 8 = c.extractLsb' 0 16 :=
    BitVec.extractLsb'_append_extractLsb'_eq_extractLsb' (start₁ := 0) (len₁ := 8) rfl
  exact happend.trans BitVec.extractLsb'_eq_self

/-- The checksum read from a frame in `rx_buf` is the one it was built with. -/
theorem frameChecksum_takenFrame {p : List Byte} (c : Word16) (hp : p.length ≤ 255) (s : State) :
    frameChecksum (takenFrame p c s) = c := by
  have hlen : (takenFrame p c s).rx_len.toNat = p.length := toNat_length_byte hp
  have hhigh : (frameBytes p c)[2 + p.length]? = some (c.extractLsb' 8 8) := by
    simp [frameBytes, Nat.add_comm 2]
  have hlow : (frameBytes p c)[3 + p.length]? = some (c.extractLsb' 0 8) := by
    simp [frameBytes, Nat.add_comm 3]
  rw [frameChecksum, hlen, rxRead_takenFrame hhigh, rxRead_takenFrame hlow, extractLsb'_high_append_low]

/-! ## The end of a Receive call -/

/-- What TERMINATOR does, on a frame without it, in a Receive call: accept the payload or end with CHECKSUM_MISMATCH, as the
payload's checksum is the frame's or not (41_frame_receiver.md R162). -/
theorem exec_terminator_takenBody {p : List Byte} (c : Word16) (hc : s.call = .receive) (hp : p.length ≤ 255) :
    (checksum s.cfg_crc_init p = c →
      exec .terminator (takenBody p c s) = .next
        { frameAccepted (takenFrame p c s) with
          payload := p
          responses := s.responses ++ [.received .ok p.length p] }) ∧
    (checksum s.cfg_crc_init p ≠ c →
      exec .terminator (takenBody p c s) = .next
        (callEnded .checksumMismatch
          { takenFrame p c s with
            diag_log := logged (.checksumMismatch (checksum s.cfg_crc_init p) c) s })) := by
  have hopen : (takenBody p c s).call ≠ .none := ne_of_eq_of_ne hc nofun
  have hlen : (takenBody p c s).rx_len.toNat = p.length := toNat_length_byte hp
  have hlast : (frameBody p c).length + 1 = (takenBody p c s).rx_len.toNat + 5 := by rw [frameBody_length, hlen]
  have hroom : (frameBody p c).length < 260 := by rw [frameBody_length]; omega
  obtain ⟨hmismatch, haccepted⟩ := terminatorRunsIntegrityCheck (takenBody p c s) (takenFrame p c s) hopen rfl hlast hroom
    (byteAppended_takenBody p c s).symm
  rw [framePayload_takenFrame c hp, frameChecksum_takenFrame c hp] at hmismatch haccepted
  rw [hlen] at haccepted
  exact ⟨fun heq => haccepted heq hc, hmismatch⟩

/-- Settles O24: the packed frame reaches the terminator whole, and its checksum is the payload's. -/
theorem packedFrameRoundTrips : Obligations.PackedFrameRoundTrips := by
  intro p s times h hb hf hp ht hd
  rw [pack_eq_frameBytes, execAll_receive_frame _ h hb hf hp ht hd]
  obtain ⟨haccepted, -⟩ :=
    exec_terminator_takenBody (s := openCall .receive s) (checksum s.cfg_crc_init p) rfl hp
  exact ⟨_, haccepted rfl, rfl, rfl, rfl⟩

/-- Settles O25: the frame reaches the terminator whole, and the flipped bit has changed the payload's checksum (O11). -/
theorem corruptedPayloadIsRejected : Obligations.CorruptedPayloadIsRejected := by
  intro p i k s times h hb hf hp hi hk ht hd
  have hlen : (flipBit p i k).length = p.length := List.length_modify ..
  have hp' : (flipBit p i k).length ≤ 255 := hlen.symm ▸ hp
  rw [execAll_receive_frame _ h hb hf hp' (ht.trans (by rw [hlen])) hd]
  obtain ⟨-, hmismatch⟩ :=
    exec_terminator_takenBody (s := openCall .receive s) (checksum s.cfg_crc_init p) rfl hp'
  exact ⟨_, hmismatch (singleBitFlipChangesChecksum _ p i k hi hk), rfl, rfl, rfl⟩

end Sys2Proof.Machine
end

section
/-!
The proofs of O38 and O39, about the bytes of a field: `bigEndian` and `memRead` one byte at a time, then `putField` and `getField`
as the two of them (43_command_codec.md R215, R233).
-/

namespace Sys2Proof

/-! ## A word and the byte after it -/

theorem toNat_append_byte {n : Nat} (x : BitVec n) (b : Byte) : (x ++ b).toNat = x.toNat * 256 + b.toNat := by
  rw [BitVec.toNat_append, ← Nat.shiftLeft_add_eq_or_of_lt b.isLt, Nat.shiftLeft_eq]

/-- The last big-endian byte is the lowest. -/
theorem bigEndian_succ (n v : Nat) : bigEndian (n + 1) v = bigEndian n (v / 256) ++ [BitVec.ofNat 8 v] := by
  induction n with
  | zero => simp [bigEndian]
  | succ n ih =>
    have hdiv : v / 256 ^ (n + 1) = v / 256 / 256 ^ n := by rw [Nat.pow_succ', Nat.div_div_eq_div_mul]
    rw [bigEndian, hdiv, ih, bigEndian, List.cons_append]

@[simp] theorem bigEndian_length (n v : Nat) : (bigEndian n v).length = n := by
  induction n with
  | zero => rfl
  | succ n ih => simp [bigEndian, ih]

theorem bigEndian_append_byte {n : Nat} (m : Nat) (x : BitVec n) (b : Byte) :
    bigEndian (m + 1) (x ++ b).toNat = bigEndian m x.toNat ++ [b] := by
  have hdiv : (x.toNat * 256 + b.toNat) / 256 = x.toNat := by omega
  have hmod : BitVec.ofNat 8 (x.toNat * 256 + b.toNat) = b := by
    apply BitVec.eq_of_toNat_eq
    rw [BitVec.toNat_ofNat]
    omega
  rw [toNat_append_byte, bigEndian_succ, hdiv, hmod]

theorem bigEndian_one_byte (b : Byte) : bigEndian 1 b.toNat = [b] := by
  simp [bigEndian]

/-! ## Reading -/

theorem memRead_whole (bs : List Byte) : memRead bs 0 bs.length = bs.foldl (fun acc b => acc * 256 + b.toNat) 0 := by
  rw [memRead, List.drop_zero, List.take_length]

/-- The bytes around those that are read do not count. -/
theorem memRead_inside (pre bs post : List Byte) :
    memRead (pre ++ (bs ++ post)) pre.length bs.length = memRead bs 0 bs.length := by
  rw [memRead_whole, memRead, List.drop_left, List.take_left]

/-- The value of big-endian bytes is the number they were made of, if it fits them. -/
theorem foldl_bigEndian {n v : Nat} (h : v < 256 ^ n) :
    (bigEndian n v).foldl (fun acc b => acc * 256 + b.toNat) 0 = v := by
  induction n generalizing v with
  | zero => exact (Nat.lt_one_iff.mp h).symm
  | succ n ih =>
    have hdiv : v / 256 < 256 ^ n := Nat.div_lt_of_lt_mul (by rwa [← Nat.pow_succ'])
    rw [bigEndian_succ, List.foldl_append, ih hdiv]
    simp only [List.foldl_cons, List.foldl_nil, BitVec.toNat_ofNat]
    omega

theorem memRead_bigEndian {n v : Nat} (h : v < 256 ^ n) : memRead (bigEndian n v) 0 n = v := by
  have hwhole := memRead_whole (bigEndian n v)
  rwa [bigEndian_length, foldl_bigEndian h] at hwhole

/-- Four bytes read big-endian are the word they make. -/
theorem memRead_four (a b c d : Byte) : BitVec.ofNat 32 (memRead [a, b, c, d] 0 4) = a ++ b ++ c ++ d := by
  have hread : memRead [a, b, c, d] 0 4 = (a ++ b ++ c ++ d).toNat := by
    simp only [toNat_append_byte, memRead, List.drop_zero, List.take, List.foldl]
    omega
  rw [hread, BitVec.ofNat_toNat, BitVec.setWidth_eq]

/-! ## Fields -/

/-- A raw word is put as its big-endian bytes. -/
theorem putField_raw (k : Kind) (r : Raw) : putField k (.raw r) = bigEndian k.width r.toNat := by
  simp [putField, memWrite]

theorem getField_inside {k : Kind} {bs : List Byte} (pre post : List Byte) (h : k.width = bs.length) :
    getField k (pre ++ (bs ++ post)) pre.length = Raw.ofNat bs.length (memRead bs 0 bs.length) := by
  rw [getField, h, memRead_inside]

theorem getField_one_byte {k : Kind} (pre : List Byte) (b : Byte) (post : List Byte) (h : k.width = 1) :
    getField k (pre ++ b :: post) pre.length = .w8 b :=
  (getField_inside (bs := [b]) pre post h).trans (by simp [Raw.ofNat, memRead])

theorem Raw.toNat_lt (r : Raw) : r.toNat < 256 ^ r.width := by
  cases r with
  | w8 v => exact v.isLt
  | w16 v => exact v.isLt
  | w32 v => exact v.isLt

@[simp] theorem Raw.ofNat_toNat (r : Raw) : Raw.ofNat r.width r.toNat = r := by
  cases r <;> simp [Raw.ofNat, Raw.width, Raw.toNat]

/-- Settles O38: a raw word fits its own width, so its big-endian bytes read back as it; the two bools are evaluated. -/
theorem getFieldInvertsPutField : Obligations.GetFieldInvertsPutField := by
  refine ⟨fun k r _ hw => ?raw, by decide⟩
  rw [putField_raw, getField, ← hw, memRead_bigEndian r.toNat_lt, Raw.ofNat_toNat]

/-- Settles O39: the bytes around a field do not count in its reading; a word's bytes are its last byte after those of the rest. -/
theorem fieldBytesAreBigEndian : Obligations.FieldBytesAreBigEndian := by
  refine ⟨fun k b0 b1 b2 b3 pre post => ?get, fun k b0 b1 b2 b3 => ?put, rfl, rfl⟩
  case get =>
    refine ⟨getField_one_byte pre b0 post, fun h => ?two, fun h => ?four⟩
    case two =>
      exact (getField_inside (bs := [b0, b1]) pre post h).trans (congrArg Raw.w16 (memRead_pair b0 b1))
    case four =>
      exact (getField_inside (bs := [b0, b1, b2, b3]) pre post h).trans (congrArg Raw.w32 (memRead_four b0 b1 b2 b3))
  case put =>
    refine ⟨fun h => ?one, fun h => ?two, fun h => ?four⟩ <;> rw [putField_raw, h, Raw.toNat]
    case one => exact bigEndian_one_byte b0
    case two => rw [bigEndian_append_byte, bigEndian_one_byte]; rfl
    case four => simp only [bigEndian_append_byte, bigEndian_one_byte, List.cons_append, List.nil_append]

end Sys2Proof
end

section
/-!
The proof of O3: each check of 43_command_codec.md R212 as what it asks of the table.
-/

namespace Sys2Proof

theorem Arm.width_eq_sum (a : Arm) : a.width = (a.fields.map (fun f => f.kind.width)).sum := fieldsWidth_eq_sum a.fields

theorem Kind.divisorOk_iff (k : Kind) : k.divisorOk = true ↔ ∀ d, k = .fix16 d ∨ k = .fix32 d → 1 ≤ d := by
  cases k <;> simp [Kind.divisorOk]

theorem Arm.slotsInRecord_iff (a : Arm) : a.slotsInRecord = true ↔ ∀ f ∈ a.fields, f.slot.record = a.record := by
  simp [Arm.slotsInRecord]

theorem Arm.slotsDistinct_iff (a : Arm) : a.slotsDistinct = true ↔ (a.fields.map Field.slot).Nodup := by
  simp [Arm.slotsDistinct]

theorem Arm.divisorsOk_iff (a : Arm) :
    a.divisorsOk = true ↔ ∀ f ∈ a.fields, ∀ d, f.kind = .fix16 d ∨ f.kind = .fix32 d → 1 ≤ d := by
  simp only [Arm.divisorsOk, List.all_eq_true, Kind.divisorOk_iff]

theorem Arm.fitsPayload_iff (a : Arm) :
    a.fitsPayload = true ↔ 2 + (a.fields.map (fun f => f.kind.width)).sum ≤ 255 := by
  simp [Arm.fitsPayload, Arm.width_eq_sum]

theorem OpTable.mem_fields_iff (t : OpTable) (f : Field) : f ∈ t.fields ↔ ∃ row ∈ t, f ∈ row.2.fields :=
  List.mem_flatMap

theorem OpTable.kindsAgree_iff (t : OpTable) :
    t.kindsAgree = true ↔ ∀ r ∈ t, ∀ q ∈ t, ∀ f ∈ r.2.fields, ∀ g ∈ q.2.fields, f.slot = g.slot → f.kind = g.kind := by
  simp only [OpTable.kindsAgree, List.all_eq_true, decide_eq_true_eq, OpTable.mem_fields_iff]
  exact ⟨fun h r hr q hq f hf g hg => h f ⟨r, hr, hf⟩ g ⟨q, hq, hg⟩,
    fun h f ⟨r, hr, hf⟩ g ⟨q, hq, hg⟩ => h r hr q hq f hf g hg⟩

/-- Settles O3: a well-formed table is one that passes each check, and each check is what it asks. -/
theorem tableWellFormedIffFiveChecks : Obligations.TableWellFormedIffFiveChecks := by
  intro t
  simp only [OpTable.wellFormed, Bool.and_eq_true, List.all_eq_true, Arm.slotsInRecord_iff, Arm.slotsDistinct_iff,
    Arm.divisorsOk_iff, Arm.fitsPayload_iff, OpTable.kindsAgree_iff, and_assoc]

end Sys2Proof
end

section
/-!
The proofs of O26 to O31, about DECODE and the rows of a payload's first two bytes. `decodeCore` is taken apart once, by the payload in
the payload buffer; each row is then the decode of a payload that selects it.
-/

namespace Sys2Proof.Machine

open Sys2Proof.Claims

variable {s : State}

/-! ## The ends of a decode, in the statements' terms -/

theorem rejectDecode_eq_payloadRejected (o : OutcomeCode) (detail : Byte) (op : Option Byte) (s : State) :
    rejectDecode o detail op s = payloadRejected o detail op s := rfl

theorem runArm_eq_armRun (a : Arm) (op : Byte) (s : State) : runArm a op s = armRun a op s := by
  rw [runArm, Arm.width_eq_sum]
  rfl

theorem armRun_short {a : Arm} {op : Byte} (h : s.payload.length < 2 + (a.fields.map (fun f => f.kind.width)).sum) :
    armRun a op s = payloadRejected .truncated op (some op) s := if_pos h

theorem armRun_long {a : Arm} {op : Byte} (h : 2 + (a.fields.map (fun f => f.kind.width)).sum ≤ s.payload.length) :
    armRun a op s = armCommitted a op s := if_neg (Nat.not_lt.mpr h)

/-! ## A decode by its payload -/

theorem decodeCore_empty (hc : s.call = .none) (hp : s.payload = []) :
    decodeCore s = .next (payloadRejected .truncated 0 none s) := by
  simp only [decodeCore_eq hc, hp, rejectDecode_eq_payloadRejected]

theorem decodeCore_mismatch {b : Byte} {rest : List Byte} (hc : s.call = .none) (hp : s.payload = b :: rest)
    (hb : b ≠ s.cfg_ident) : decodeCore s = .next (payloadRejected .identifierMismatch b none s) := by
  simp only [decodeCore_eq hc, hp, if_pos hb, rejectDecode_eq_payloadRejected]

theorem decodeCore_identOnly (hc : s.call = .none) (hp : s.payload = [s.cfg_ident]) :
    decodeCore s = .next (payloadRejected .truncated 0 none s) := by
  simp only [decodeCore_eq hc, hp, ne_eq, not_true, if_false, rejectDecode_eq_payloadRejected]

theorem decodeCore_noArm {op : Byte} {rest : List Byte} (hc : s.call = .none) (hp : s.payload = s.cfg_ident :: op :: rest)
    (ha : s.cfg_optable.arm op = none) : decodeCore s = .next (payloadRejected .unknownOpcode op (some op) s) := by
  simp only [decodeCore_eq hc, hp, ne_eq, not_true, if_false, ha, rejectDecode_eq_payloadRejected]

theorem decodeCore_arm {op : Byte} {rest : List Byte} {a : Arm} (hc : s.call = .none)
    (hp : s.payload = s.cfg_ident :: op :: rest) (ha : s.cfg_optable.arm op = some a) :
    decodeCore s = .next (armRun a op s) := by
  simp only [decodeCore_eq hc, hp, ne_eq, not_true, if_false, ha, runArm_eq_armRun]

/-! ## The rows of the identifier byte -/

theorem exec_identRow_toInstr (r : IdentRow) (s : State) : exec r.toInstr s = runIdentRow r s := by
  cases r <;> rfl

/-- A decode runs the row its first byte selects (43_command_codec.md R221). -/
theorem decodeCore_eq_exec {b : Byte} {rest : List Byte} (hp : s.payload = b :: rest) :
    decodeCore s = exec (decodeWire (.ident s.cfg_ident) b) s := by
  rw [decodeWire, exec_identRow_toInstr, decodeCore, hp]
  rfl

theorem exec_identMismatch_eq_decodeCore {b : Byte} {rest : List Byte} (hp : s.payload = b :: rest) (hb : b ≠ s.cfg_ident) :
    exec (.identMismatch b) s = decodeCore s := by
  rw [decodeCore_eq_exec hp, decodeWire, decodeIdent_other hb]
  rfl

theorem exec_identOk_eq_decodeCore {rest : List Byte} (hp : s.payload = s.cfg_ident :: rest) :
    exec .identOk s = decodeCore s := by
  rw [decodeCore_eq_exec hp, decodeWire, decodeIdent_self]
  rfl

/-! ## DECODE -/

theorem exec_decode_tooLong {p : List Byte} (h : Ready s) (hp : 255 < p.length) :
    exec (.decode p) s = .next { s with responses := s.responses ++ [.decoded .payloadTooLong none] } :=
  (if_pos h).trans (if_pos hp)

/-- DECODE of a payload that fits decodes it from the payload buffer (43_command_codec.md R220). -/
theorem exec_decode_eq_decodeCore {p : List Byte} (h : Ready s) (hp : p.length ≤ 255) :
    exec (.decode p) s = decodeCore { s with payload := p } := by
  rw [← loadPayload_of_fits hp]
  exact (if_pos h).trans (if_neg (Nat.not_lt.mpr hp))

/-- Settles O26: DECODE's tests, and then the decode of the payload buffer by its first byte. -/
theorem decodeRunsIdentifierRow : Obligations.DecodeRunsIdentifierRow := by
  intro p s h
  refine ⟨exec_decode_tooLong h, ?empty, ?row⟩
  case empty =>
    rintro rfl
    exact (exec_decode_eq_decodeCore h (Nat.zero_le _)).trans (decodeCore_empty h.2 rfl)
  case row =>
    rintro b rest rfl hp
    exact (exec_decode_eq_decodeCore h hp).trans (decodeCore_eq_exec rfl)

/-- Settles O27: the row is the decode of its payload, and so is DECODE; that decode ends at the identifier. -/
theorem wrongIdentifierIsRejected : Obligations.WrongIdentifierIsRejected := by
  intro b rest s hb
  refine ⟨fun hc hp => ?row, fun h hp => ?decode⟩
  case row => exact (exec_identMismatch_eq_decodeCore hp hb).trans (decodeCore_mismatch hc hp hb)
  case decode => exact (exec_decode_eq_decodeCore h hp).trans (decodeCore_mismatch h.2 rfl hb)

/-- Settles O28: the row is the decode of its payload, by what follows the identifier. -/
theorem acceptedIdentifierGoesOnToOpcode : Obligations.AcceptedIdentifierGoesOnToOpcode := by
  intro s hc
  refine ⟨fun hp => ?identOnly, fun op rest hp => ⟨fun ha => ?noArm, fun a ha => ?arm⟩⟩
  case identOnly => exact (exec_identOk_eq_decodeCore hp).trans (decodeCore_identOnly hc hp)
  case noArm => exact (exec_identOk_eq_decodeCore hp).trans (decodeCore_noArm hc hp ha)
  case arm => exact (exec_identOk_eq_decodeCore hp).trans (decodeCore_arm hc hp ha)

/-! ## The rows of the opcode byte -/

theorem atOpcode_of_payload {op : Byte} {rest : List Byte} (hc : s.call = .none)
    (hp : s.payload = s.cfg_ident :: op :: rest) : atOpcode s op = true := by
  simp [atOpcode, hc, hp]

/-- Settles O29: the decode has reached the opcode, which has no arm. -/
theorem unknownOpcodeIsRejected : Obligations.UnknownOpcodeIsRejected := by
  intro op rest s hc hp ha
  exact congrArg _ (if_pos ⟨atOpcode_of_payload hc hp, ha⟩)

/-- Settles O30: the decode has reached the opcode, and its arm runs. -/
theorem opcodeArmTakesItsFields : Obligations.OpcodeArmTakesItsFields := by
  intro op rest a s hc hp ha
  refine congrArg _ ((if_pos (atOpcode_of_payload hc hp)).trans ?_)
  rw [ha]
  exact runArm_eq_armRun a op s

theorem exec_opRequestTelemetry {rest : List Byte} {a : Arm} (hc : s.call = .none)
    (hp : s.payload = s.cfg_ident :: telemetryOpcode :: rest) (ha : s.cfg_optable.arm telemetryOpcode = some a)
    (ht : a.isTelemetry = true) : exec .opRequestTelemetry s = .next (armRun telemetryArm telemetryOpcode s) := by
  have harm : ((s.cfg_optable.arm telemetryOpcode).map Arm.isTelemetry).getD false = true := by rw [ha]; exact ht
  rw [← runArm_eq_armRun]
  exact congrArg _ (if_pos ⟨atOpcode_of_payload hc hp, harm⟩)

/-- The default table has an arm for its one opcode only (43_command_codec.md R213). -/
theorem defaultTable_arm_other {op : Byte} (h : op ≠ telemetryOpcode) : defaultTable.arm op = none := by
  refine if_neg fun hk => h ?_
  exact BitVec.eq_of_toNat_eq hk.symm

theorem telemetryArm_width_sum : (telemetryArm.fields.map (fun f => f.kind.width)).sum = 1 := rfl

/-- Settles O31: the row runs the default arm, whose one field is the byte after the opcode. -/
theorem defaultTableDecodesSwitchState : Obligations.DefaultTableDecodesSwitchState := by
  refine ⟨⟨rfl, fun op => defaultTable_arm_other⟩, fun s a hc ha hrecord hfields => ?_⟩
  have ht : a.isTelemetry = true := (isTelemetry_iff a).mpr ⟨hrecord, hfields⟩
  refine ⟨fun hp => ?short, fun v rest hp => ?long⟩
  case short =>
    have hshort : s.payload.length < 2 + (telemetryArm.fields.map (fun f => f.kind.width)).sum := by
      simp [hp, telemetryArm_width_sum]
    rw [exec_opRequestTelemetry hc hp ha ht, armRun_short hshort]
  case long =>
    have hlong : 2 + (telemetryArm.fields.map (fun f => f.kind.width)).sum ≤ s.payload.length := by
      simp [hp, telemetryArm_width_sum]
    have hfield : getField .u8 (s.cfg_ident :: 0x01 :: v :: rest) 2 = .w8 v :=
      getField_one_byte [s.cfg_ident, 0x01] v rest rfl
    rw [exec_opRequestTelemetry hc hp ha ht, armRun_long hlong, armCommitted, hp]
    simp only [telemetryArm, fieldWrites, hfield, List.foldl_cons, List.foldl_nil]

end Sys2Proof.Machine
end

section
/-!
The proofs of O33, O34 and O35, about the slots a whole DECODE writes. What DECODE of a payload that fits does is said once
(`DecodeRun`): it rejects the payload, or commits an arm's fields.
-/

namespace Sys2Proof.Machine

open Sys2Proof.Claims

variable {p : List Byte} {s t : State}

/-! ## What DECODE does -/

/-- What DECODE of a payload that fits can do, with the outcome it has by 60_exceptions.md R293. -/
inductive DecodeRun (p : List Byte) (s : State) : State → Prop
  | rejected (o : OutcomeCode) (detail : Byte) (op : Option Byte) (ho : o ≠ .ok) (h : decodeOutcome s p = (o, op)) :
      DecodeRun p s (payloadRejected o detail op { s with payload := p })
  | committed (op : Byte) (rest : List Byte) (a : Arm) (hp : p = s.cfg_ident :: op :: rest)
      (ha : s.cfg_optable.arm op = some a) (h : decodeOutcome s p = (.ok, some op)) :
      DecodeRun p s (armCommitted a op { s with payload := p })

theorem decodeOutcome_mismatch {b : Byte} (rest : List Byte) (hb : b ≠ s.cfg_ident) :
    decodeOutcome s (b :: rest) = (.identifierMismatch, none) := by
  cases rest <;> simp [decodeOutcome, hb]

theorem decodeOutcome_noArm {op : Byte} (rest : List Byte) (ha : s.cfg_optable.arm op = none) :
    decodeOutcome s (s.cfg_ident :: op :: rest) = (.unknownOpcode, some op) := by
  simp [decodeOutcome, ha]

theorem decodeOutcome_arm {op : Byte} {rest : List Byte} {a : Arm} (hp : p = s.cfg_ident :: op :: rest)
    (ha : s.cfg_optable.arm op = some a) :
    decodeOutcome s p =
      if p.length < 2 + (a.fields.map (fun f => f.kind.width)).sum then (.truncated, some op) else (.ok, some op) := by
  subst hp
  simp [decodeOutcome, ha]

/-- An arm rejects or commits as its fields fit the payload (43_command_codec.md R224). -/
theorem armRun_decodeRun {op : Byte} {rest : List Byte} {a : Arm} (hp : p = s.cfg_ident :: op :: rest)
    (ha : s.cfg_optable.arm op = some a) : DecodeRun p s (armRun a op { s with payload := p }) := by
  have hout := decodeOutcome_arm hp ha
  rcases Nat.lt_or_ge p.length (2 + (a.fields.map (fun f => f.kind.width)).sum) with hl | hl
  · rw [armRun_short hl]
    exact .rejected _ _ _ nofun (hout.trans (if_pos hl))
  · rw [armRun_long hl]
    exact .committed op rest a hp ha (hout.trans (if_neg (Nat.not_lt.mpr hl)))

theorem exec_decode_decodeRun (h : Ready s) (hp : p.length ≤ 255) :
    ∃ t, exec (.decode p) s = .next t ∧ DecodeRun p s t := by
  rw [exec_decode_eq_decodeCore h hp]
  cases p with
  | nil => exact ⟨_, decodeCore_empty h.2 rfl, .rejected _ _ _ nofun rfl⟩
  | cons b rest =>
    by_cases hb : b = s.cfg_ident
    · subst hb
      cases rest with
      | nil => exact ⟨_, decodeCore_identOnly h.2 rfl, .rejected _ _ _ nofun (by simp [decodeOutcome])⟩
      | cons op rest =>
        cases ha : s.cfg_optable.arm op with
        | none => exact ⟨_, decodeCore_noArm h.2 rfl ha, .rejected _ _ _ nofun (decodeOutcome_noArm rest ha)⟩
        | some a => exact ⟨_, decodeCore_arm h.2 rfl ha, armRun_decodeRun rfl ha⟩
    · exact ⟨_, decodeCore_mismatch h.2 rfl hb, .rejected _ _ _ nofun (decodeOutcome_mismatch rest hb)⟩

theorem DecodeRun.of_exec (h : Ready s) (hp : p.length ≤ 255) (ht : exec (.decode p) s = .next t) : DecodeRun p s t := by
  obtain ⟨t', ht', hrun⟩ := exec_decode_decodeRun h hp
  exact Host.Outcome.next.inj (ht'.symm.trans ht) ▸ hrun

theorem DecodeRun.frame (h : DecodeRun p s t) :
    t = { s with payload := p, slots := t.slots, diag_log := t.diag_log, responses := t.responses } := by
  cases h <;> rfl

/-- DECODE leaves the block ready. -/
theorem ready_of_exec_decode (h : Ready s) (ht : exec (.decode p) s = .next t) : Ready t := by
  rcases Nat.lt_or_ge 255 p.length with hl | hl
  · obtain rfl := Host.Outcome.next.inj ((exec_decode_tooLong h hl).symm.trans ht)
    exact h
  · rw [(DecodeRun.of_exec h hl ht).frame]
    exact h

/-- DECODE leaves what the outcome of the next one depends on. -/
theorem DecodeRun.decodeOutcome_eq (h : DecodeRun p s t) : decodeOutcome t p = decodeOutcome s p := by
  rw [h.frame]
  rfl

/-- A payload has one opcode, and that one arm. -/
theorem opcode_and_arm_unique {table : OpTable} {ident op op' : Byte} {rest rest' : List Byte} {a a' : Arm}
    (hp : p = ident :: op :: rest) (hp' : p = ident :: op' :: rest') (ha : table.arm op = some a)
    (ha' : table.arm op' = some a') : op = op' ∧ a = a' := by
  obtain ⟨rfl, -⟩ : op = op' ∧ rest = rest' := by simpa [hp] using hp'
  exact ⟨rfl, Option.some.inj (ha.symm.trans ha')⟩

/-! ## The slots an arm writes -/

theorem readSlot_armCommitted (a : Arm) (op : Byte) (s : State) (sl : Slot) :
    readSlot (armCommitted a op s) sl = readSlot (writeSlots (fieldWrites a.fields s.payload 2) s) sl := rfl

/-- An arm of a well-formed table names no slot twice (43_command_codec.md R212 check 2). -/
theorem slots_nodup_of_wellFormed {table : OpTable} {op : Byte} {a : Arm} (hw : table.wellFormed = true)
    (ha : table.arm op = some a) : (a.fields.map Field.slot).Nodup := by
  obtain ⟨harms, -⟩ := (tableWellFormedIffFiveChecks table).mp hw
  obtain ⟨-, hnodup, -⟩ := harms _ (Cells.mem_of_read _ _ _ ha)
  exact hnodup

/-- A slot an arm names once takes its field from the field's own offset. -/
theorem readSlot_armCommitted_field {a : Arm} {j : Nat} {f : Field} (op : Byte) (s : State)
    (hnodup : (a.fields.map Field.slot).Nodup) (hf : a.fields[j]? = some f) :
    readSlot (armCommitted a op s) f.slot =
      some ⟨f.kind, getField f.kind s.payload (2 + ((a.fields.take j).map (fun g => g.kind.width)).sum)⟩ := by
  rw [readSlot_armCommitted]
  exact readSlot_writeSlots_mem _ s (by rwa [fieldWrites_slots]) _ (fieldWrites_getElem a.fields s.payload 2 j f hf)

theorem readSlot_armCommitted_other {a : Arm} {sl : Slot} (op : Byte) (s : State) (h : sl ∉ a.fields.map Field.slot) :
    readSlot (armCommitted a op s) sl = readSlot s sl := by
  rw [readSlot_armCommitted]
  refine readSlot_writeSlots_other _ s sl fun w hw e => h ?_
  rw [← fieldWrites_slots a.fields s.payload 2, ← e]
  exact List.mem_map_of_mem hw

/-- Settles O33: a decode with an outcome other than OK writes nothing, and one with OK commits the arm of its opcode. -/
theorem decodeCommitsAllFieldsOrNone : Obligations.DecodeCommitsAllFieldsOrNone := by
  intro p s h hw
  rcases Nat.lt_or_ge 255 p.length with hl | hl
  · exact ⟨_, exec_decode_tooLong h hl, fun _ => rfl, fun _ _ _ hp => absurd hp (Nat.not_le.mpr hl)⟩
  · obtain ⟨t, ht, hrun⟩ := exec_decode_decodeRun h hl
    refine ⟨t, ht, ?_⟩
    cases hrun with
    | rejected o detail op ho hout =>
      exact ⟨fun _ => rfl, fun _ _ _ _ _ _ hok => absurd (by rwa [hout] at hok) ho⟩
    | committed op rest a hp ha hout =>
      refine ⟨fun hfail => ?none, fun op' rest' a' _ hp' ha' _ => ?all⟩
      case none => exact absurd (by rw [hout]) (hfail.resolve_left (Nat.not_lt.mpr hl))
      case all =>
        obtain ⟨rfl, rfl⟩ := opcode_and_arm_unique hp hp' ha ha'
        exact ⟨fun j f hf => readSlot_armCommitted_field op _ (slots_nodup_of_wellFormed hw ha) hf,
          fun sl hsl => readSlot_armCommitted_other op _ hsl⟩

/-! ## Decoding twice -/

theorem readSlot_writeSlots_append_singleton (ws : List (Slot × SlotVal)) (w : Slot × SlotVal) (s : State) (sl : Slot) :
    readSlot (writeSlots (ws ++ [w]) s) sl = if sl = w.1 then some w.2 else readSlot (writeSlots ws s) sl := by
  have hlast : writeSlots (ws ++ [w]) s = writeSlots [w] (writeSlots ws s) := by simp [writeSlots]
  rw [hlast]
  split
  · next h => subst h; simp [readSlot]
  · next h => exact readSlot_writeSlots_other [w] _ sl (by simpa using Ne.symm h)

/-- What a written slot holds does not depend on what was there before. -/
theorem readSlot_writeSlots_congr {ws : List (Slot × SlotVal)} {sl : Slot} (h : ∃ w ∈ ws, w.1 = sl) (s t : State) :
    readSlot (writeSlots ws s) sl = readSlot (writeSlots ws t) sl := by
  induction ws using List.reverseRecOn with
  | nil => simp at h
  | append_singleton ws w ih =>
    rw [readSlot_writeSlots_append_singleton, readSlot_writeSlots_append_singleton]
    split
    · rfl
    · next hne =>
      refine ih ?_
      obtain ⟨v, hv, rfl⟩ := h
      rcases List.mem_append.mp hv with hv | hv
      · exact ⟨v, hv, rfl⟩
      · exact absurd (congrArg Prod.fst (List.mem_singleton.mp hv)) hne

/-- Slot writes made twice are slot writes made once. -/
theorem readSlot_writeSlots_twice (ws : List (Slot × SlotVal)) (s : State) (sl : Slot) :
    readSlot (writeSlots ws (writeSlots ws s)) sl = readSlot (writeSlots ws s) sl := by
  by_cases h : ∃ w ∈ ws, w.1 = sl
  · exact readSlot_writeSlots_congr h _ _
  · exact readSlot_writeSlots_other ws _ sl fun w hw e => h ⟨w, hw, e⟩

/-- Settles O34: where the second decode commits an arm, the first has committed the same one. -/
theorem decodeIsIdempotent : Obligations.DecodeIsIdempotent := by
  intro p s t u h ht hu sl
  have h' : Ready t := ready_of_exec_decode h ht
  rcases Nat.lt_or_ge 255 p.length with hl | hl
  · obtain rfl := Host.Outcome.next.inj ((exec_decode_tooLong h' hl).symm.trans hu)
    rfl
  · have hrun := DecodeRun.of_exec h hl ht
    have hout := hrun.decodeOutcome_eq
    cases DecodeRun.of_exec h' hl hu with
    | rejected => rfl
    | committed op rest a hp ha hok =>
      cases hrun with
      | rejected o detail op' ho hfail => exact absurd (congrArg Prod.fst ((hfail.symm.trans hout.symm).trans hok)) ho
      | committed op' rest' a' hp' ha' _ =>
        obtain ⟨rfl, rfl⟩ := opcode_and_arm_unique hp hp' ha ha'
        exact readSlot_writeSlots_twice (fieldWrites a.fields p 2) { s with payload := p } sl

/-! ## Bytes after the last field -/

theorem exec_decode_commits {op : Byte} {rest : List Byte} {a : Arm} (h : Ready s) (ha : s.cfg_optable.arm op = some a)
    (hw : (a.fields.map (fun f => f.kind.width)).sum ≤ rest.length) (hl : 2 + rest.length ≤ 255) :
    exec (.decode (s.cfg_ident :: op :: rest)) s =
      .next (armCommitted a op { s with payload := s.cfg_ident :: op :: rest }) := by
  have hlen : (s.cfg_ident :: op :: rest).length = 2 + rest.length := by
    simp only [List.length_cons]
    omega
  have hlong : 2 + (a.fields.map (fun f => f.kind.width)).sum ≤ (s.cfg_ident :: op :: rest).length :=
    (Nat.add_le_add_left hw 2).trans hlen.ge
  calc exec (.decode (s.cfg_ident :: op :: rest)) s
    _ = decodeCore { s with payload := s.cfg_ident :: op :: rest } := exec_decode_eq_decodeCore h (hlen.trans_le hl)
    _ = .next (armRun a op { s with payload := s.cfg_ident :: op :: rest }) := decodeCore_arm h.2 rfl ha
    _ = .next (armCommitted a op { s with payload := s.cfg_ident :: op :: rest }) := congrArg _ (armRun_long hlong)

/-- Settles O35: both payloads commit the arm, and its fields are read from the bytes they share. -/
theorem trailingBytesAreIgnored : Obligations.TrailingBytesAreIgnored := by
  intro op body extra a s h ha hw hl
  have hlen : (body ++ extra).length = body.length + extra.length := List.length_append
  refine ⟨_, _, exec_decode_commits h ha hw.ge (by omega), exec_decode_commits h ha (by omega) hl, ?slots, rfl, rfl⟩
  case slots =>
    have hwrites : fieldWrites a.fields (s.cfg_ident :: op :: (body ++ extra)) 2 =
        fieldWrites a.fields (s.cfg_ident :: op :: body) 2 :=
      fieldWrites_append a.fields (s.cfg_ident :: op :: body) extra 2 (by simp; omega)
    simp only [armCommitted, hwrites]

end Sys2Proof.Machine
end

section
/-!
The proofs of O36 and O37, about the encoders (43_command_codec.md R230 to R232).
-/

namespace Sys2Proof.Machine

open Sys2Proof.Claims

variable {s : State}

/-- Settles O36: ENC_REQUEST is a host operation whose run only answers. -/
theorem encRequestBuildsThreeBytes : Obligations.EncRequestBuildsThreeBytes :=
  fun _ s => hostOp_runs_or_refused s _

/-- What ENC_FIELDS does on a block that runs it. -/
def encFieldsRun (op : Byte) (vs : List (Kind × FieldIn)) (s : State) : State :=
  if vs.all fieldInOk = true then
    if 255 < (requestPayload s op ++ putFields vs).length then respond (.encoded .payloadTooLong none) s
    else respond (.encoded .ok (some (requestPayload s op ++ putFields vs))) s
  else refuse s

theorem exec_encFields (op : Byte) (vs : List (Kind × FieldIn)) (s : State) :
    exec (.encFields op vs) s = .next (hostOp s (encFieldsRun op vs s)) := rfl

theorem encodedPayload_length (op : Byte) (vs : List (Kind × FieldIn)) (s : State) :
    (requestPayload s op ++ putFields vs).length = 3 + (vs.map (fun kv => (putField kv.1 kv.2).length)).sum := by
  rw [List.length_append, putFields, List.length_flatMap]
  rfl

/-- Operands in their domain are encoded, or found too long; nothing else changes. -/
theorem encFieldsRun_ok {vs : List (Kind × FieldIn)} (op : Byte) (s : State) (h : vs.all fieldInOk = true) :
    encFieldsRun op vs s = respond
      (if 255 < 3 + (vs.map (fun kv => (putField kv.1 kv.2).length)).sum then .encoded .payloadTooLong none
        else .encoded .ok (some (requestPayload s op ++ putFields vs))) s := by
  rw [encFieldsRun, if_pos h, encodedPayload_length]
  split <;> rfl

/-- Settles O37: ENC_FIELDS is a host operation whose run only answers; with no fields it answers the request payload. -/
theorem encFieldsAppendsFields : Obligations.EncFieldsAppendsFields := by
  intro op vs s
  obtain ⟨hrun, hrefused⟩ := hostOp_runs_or_refused s (encFieldsRun op vs s)
  refine ⟨fun h hvs => ?encoded, hrefused, ?noFields⟩
  case encoded => exact (hrun h).trans (congrArg _ (encFieldsRun_ok op s hvs))
  case noFields =>
    have hempty : encFieldsRun op [] s = respond (.encoded .ok (some (requestPayload s op))) s := by
      rw [encFieldsRun_ok op s rfl]
      rfl
    rw [exec_encFields, hempty]
    rfl

end Sys2Proof.Machine
end

section
/-!
The proof of O47: by the effects of the instructions, only CONFIGURE writes the configuration, and it runs on an unconfigured block.
-/

namespace Sys2Proof.Machine

variable {s t : State} {i : Instr}

/-- `configured` and the configuration registers (10_state.md section 2, 44_session_ops.md R251). -/
def configuration (s : State) : Bool × Nat × Byte × Word16 × Byte × OpTable :=
  (s.configured, s.cfg_timeout, s.cfg_ident, s.cfg_crc_init, s.cfg_req_sentinel, s.cfg_optable)

theorem Decoded.configuration_eq (h : Decoded s t) : configuration t = configuration s := by
  rw [h.frame]; rfl

theorem RxEffect.configuration_eq (h : RxEffect s (.next t)) : configuration t = configuration s := by
  rw [h.frame]; rfl

theorem ExecEffect.configuration_eq (h : ExecEffect s i t) (hc : s.configured = true) :
    configuration t = configuration s := by
  cases h with
  | configured _ _ _ _ _ hu => simp [hu] at hc
  | decode p t _ _ ht => exact ht.configuration_eq
  | timedOut => rw [failCall_frame]; rfl
  | byteTaken time b rest t _ _ _ ht => exact ht.configuration_eq
  | receiverRow r t ht => exact (runRxRow_next_effect ht).configuration_eq
  | decodeRow i t _ ht => exact ht.configuration_eq
  | _ => rfl

/-- Settles O47: every effect on a configured block keeps its configuration. -/
theorem configurationIsNeverRewritten : Obligations.ConfigurationIsNeverRewritten := by
  intro i s t h hc
  have hcfg := (exec_effect h).configuration_eq hc
  simp only [configuration, Prod.mk.injEq] at hcfg
  obtain ⟨hconfigured, hregisters⟩ := hcfg
  exact ⟨hconfigured.trans hc, hregisters⟩

end Sys2Proof.Machine
end

section
/-!
The proof of O55. Each operand reader of the decoder hands its continuation operands in their domain, so what a line decodes to
carries the line's name and is well-formed.
-/

namespace Sys2Proof

/-- What `r` answers, if it answers, is a well-formed instruction of the row `m`. -/
def Reads (m : Mnemonic) (r : Except Reject Instr) : Prop := ∀ i, r = .ok i → i.mnemonic = m ∧ i.wellFormed = true

variable {m : Mnemonic}

/-! ## The operand readers -/

theorem reads_ok {i : Instr} (hm : i.mnemonic = m) (hw : i.wellFormed = true) : Reads m (.ok i) := by
  rintro _ ⟨⟩
  exact ⟨hm, hw⟩

theorem reads_error (e : Reject) : Reads m (.error e) := nofun

theorem reads_checked {i : Instr} (hm : i.mnemonic = m) : Reads m (checked i) := by
  intro j hj
  obtain ⟨rfl, hw⟩ := checked_ok hj
  exact ⟨hm, hw⟩

theorem reads_withByte (n : Nat) {k : Byte → Except Reject Instr} (hk : ∀ b, Reads m (k b)) : Reads m (withByte n k) := by
  unfold withByte
  split
  · exact hk _
  · exact reads_error _

theorem reads_withWord16 (n : Nat) {k : Word16 → Except Reject Instr} (hk : ∀ v, Reads m (k v)) :
    Reads m (withWord16 n k) := by
  unfold withWord16
  split
  · exact hk _
  · exact reads_error _

/-- A table operand that is read is a finite map from bytes (43_command_codec.md R211). -/
theorem reads_withTable (rows : List (Nat × Arm)) {k : OpTable → Except Reject Instr}
    (hk : ∀ t : OpTable, t.isMap = true → Reads m (k t)) : Reads m (withTable rows k) := by
  unfold withTable
  split
  · rename_i h
    obtain ⟨hbytes, -⟩ := (Bool.and_eq_true _ _).mp h
    exact hk _ (isMap_ofList hbytes)
  · exact reads_error _

theorem reads_noOperands (ops : List Operand) {i : Instr} (hm : i.mnemonic = m) (hw : i.wellFormed = true) :
    Reads m (noOperands ops i) := by
  unfold noOperands
  split
  · exact reads_ok hm hw
  · exact reads_error _

theorem reads_oneByte (ops : List Operand) {f : Byte → Instr} (hm : ∀ b, (f b).mnemonic = m)
    (hw : ∀ b, (f b).wellFormed = true) : Reads m (oneByte ops f) := by
  unfold oneByte
  split
  · exact reads_withByte _ fun b => reads_ok (hm b) (hw b)
  · exact reads_error _

theorem reads_oneSequence (ops : List Operand) {f : List Byte → Instr} (hm : ∀ p, (f p).mnemonic = m)
    (hw : ∀ p, (f p).wellFormed = true) : Reads m (oneSequence ops f) := by
  unfold oneSequence
  split
  · exact reads_ok (hm _) (hw _)
  · exact reads_error _

/-! ## The operations with operands of their own, and every line -/

theorem reads_decodeConfigure (ops : List Operand) : Reads .configure (decodeConfigure ops) := by
  unfold decodeConfigure
  split
  · exact reads_withByte _ fun _ => reads_withWord16 _ fun _ => reads_withByte _ fun _ =>
      reads_withTable _ fun _ ht => reads_ok rfl ht
  · exact reads_error _

theorem reads_decodeEncFields (ops : List Operand) : Reads .encFields (decodeEncFields ops) := by
  unfold decodeEncFields
  split
  · exact reads_withByte _ fun _ => reads_checked rfl
  · exact reads_error _

theorem reads_decodeReadField (ops : List Operand) : Reads .readField (decodeReadField ops) := by
  unfold decodeReadField
  split
  · exact reads_checked rfl
  · exact reads_error _

/-- A line is read as an instruction of the row it names. -/
theorem reads_decodeLine (l : HostLine) : Reads l.name (decodeLine l) := by
  unfold decodeLine
  cases l.name with
  | configure => exact reads_decodeConfigure _
  | encFields => exact reads_decodeEncFields _
  | readField => exact reads_decodeReadField _
  | bindTransport | bindDiag | crcClear | crcRead | rxReceive | poll => exact reads_noOperands _ rfl rfl
  | crcFeed | encRequest | request | arrive => exact reads_oneByte _ (fun _ => rfl) (fun _ => rfl)
  | crcCompute | txSend | decode => exact reads_oneSequence _ (fun _ => rfl) (fun _ => rfl)
  | _ => exact reads_error _

theorem mnemonic_of_decodeLine {l : HostLine} {i : Instr} (h : decodeLine l = .ok i) : i.mnemonic = l.name :=
  (reads_decodeLine l i h).1

/-- Settles O55: every operand reader answers well-formed instructions only. -/
theorem decodedLineIsWellFormed : Obligations.DecodedLineIsWellFormed :=
  fun l i h => (reads_decodeLine l i h).2

end Sys2Proof
end

section
/-!
The proof of O46. Forgetting the diagnostics (`quiet`) commutes with every instruction but BIND_DIAG: no instruction reads
`diag_log`, and but for BIND_DIAG `diag_bound` is read only by `emit`, which writes `diag_log`. So two states that are equal once quiet
run alike.
-/

namespace Sys2Proof.Machine

open Sys2Proof.Claims

variable {s t : State} {i : Instr}

/-- The state with diagnostics unbound and none logged. -/
def quiet (s : State) : State := { s with diag_bound := false, diag_log := [] }

/-- A result with its diagnostics forgotten. -/
def quietResult : Result → Result
  | .next s => .next (quiet s)
  | .fault f => .fault f
  | .refused r => .refused r

@[simp] theorem quietResult_next (s : State) : quietResult (.next s) = .next (quiet s) := rfl

theorem sameButDiagnostics_iff_quiet : SameButDiagnostics s t ↔ quiet s = quiet t := Iff.rfl

theorem sameOutcome_of_quietResult_eq {r q : Result} (h : quietResult r = quietResult q) : SameOutcome r q :=
  match r, q, h with
  | .next _, .next _, h => sameButDiagnostics_iff_quiet.mpr (Host.Outcome.next.inj h)
  | .fault _, .fault _, h => Host.Outcome.fault.inj h
  | .refused _, .refused _, h => Host.Outcome.refused.inj h

/-! ## Branches

The condition of a branch reads no diagnostics, so it is the same in the quiet state. -/

theorem ite_quiet {c : Prop} [Decidable c] {x y x' y' : State} (hx : x' = quiet x) (hy : y' = quiet y) :
    (if c then x' else y') = quiet (if c then x else y) := by
  rw [hx, hy, apply_ite quiet]

theorem ite_quietResult {c : Prop} [Decidable c] {x y x' y' : Result} (hx : x' = quietResult x) (hy : y' = quietResult y) :
    (if c then x' else y') = quietResult (if c then x else y) := by
  rw [hx, hy, apply_ite quietResult]

theorem next_quiet {x x' : State} (h : x' = quiet x) : Host.Outcome.next x' = quietResult (.next x) := by
  rw [h, quietResult_next]

/-! ## The shared operations -/

/-- An event is logged in diagnostics alone (60_exceptions.md R295). -/
theorem emit_quiet (d : Diag) (s : State) : emit d (quiet s) = quiet (emit d s) := rfl

theorem failCall_quiet (o : OutcomeCode) (s : State) : failCall o (quiet s) = quiet (failCall o s) := by
  have hcall : (quiet s).call = s.call := rfl
  cases hc : s.call <;> simp only [failCall, hcall, hc] <;> rfl

/-- A guarded run commutes with `quiet` if the run does. -/
theorem hostOp_quiet {run run' : State} (h : run' = quiet run) :
    Host.Outcome.next (hostOp (quiet s) run') = quietResult (.next (hostOp s run)) :=
  next_quiet (ite_quiet h rfl)

theorem rxRow_quiet (r : RxRow) {run run' : Result} (h : run' = quietResult run) :
    rxRow r (quiet s) run' = quietResult (rxRow r s run) :=
  ite_quietResult h rfl

theorem withRoom_quiet {run run' : Result} (h : run' = quietResult run) :
    withRoom (quiet s) run' = quietResult (withRoom s run) :=
  ite_quietResult h rfl

/-! ## The rows of a decode -/

theorem runArm_quiet (a : Arm) (op : Byte) (s : State) : runArm a op (quiet s) = quiet (runArm a op s) :=
  ite_quiet rfl rfl

theorem execOpUnknown_quiet (op : Byte) (s : State) : execOpUnknown op (quiet s) = quietResult (execOpUnknown op s) :=
  next_quiet (ite_quiet rfl rfl)

theorem execOpArm_quiet (op : Byte) (s : State) : execOpArm op (quiet s) = quietResult (execOpArm op s) := by
  have htable : (quiet s).cfg_optable = s.cfg_optable := rfl
  unfold execOpArm
  rw [htable]
  cases s.cfg_optable.arm op with
  | none => exact next_quiet (ite_quiet rfl rfl)
  | some a => exact next_quiet (ite_quiet (runArm_quiet a op s) rfl)

theorem execOpRequestTelemetry_quiet (s : State) :
    execOpRequestTelemetry (quiet s) = quietResult (execOpRequestTelemetry s) :=
  next_quiet (ite_quiet (runArm_quiet _ _ s) rfl)

theorem runOpRow_quiet (r : OpRow) (s : State) : runOpRow r (quiet s) = quietResult (runOpRow r s) := by
  cases r with
  | requestTelemetry => exact execOpRequestTelemetry_quiet s
  | arm op => exact execOpArm_quiet op s
  | unknown op => exact execOpUnknown_quiet op s

theorem execIdentMismatch_quiet (b : Byte) (s : State) :
    execIdentMismatch b (quiet s) = quietResult (execIdentMismatch b s) :=
  next_quiet (ite_quiet rfl rfl)

theorem execIdentOk_quiet (s : State) : execIdentOk (quiet s) = quietResult (execIdentOk s) := by
  have hpayload : (quiet s).payload = s.payload := rfl
  unfold execIdentOk
  rw [hpayload]
  cases s.payload[1]? with
  | none => exact ite_quietResult rfl rfl
  | some op => exact ite_quietResult (runOpRow_quiet _ s) rfl

theorem runIdentRow_quiet (r : IdentRow) (s : State) : runIdentRow r (quiet s) = quietResult (runIdentRow r s) := by
  cases r with
  | identOk => exact execIdentOk_quiet s
  | identMismatch b => exact execIdentMismatch_quiet b s

theorem decodeCore_quiet (s : State) : decodeCore (quiet s) = quietResult (decodeCore s) := by
  have hpayload : (quiet s).payload = s.payload := rfl
  unfold decodeCore
  rw [hpayload]
  cases s.payload[0]? with
  | none => rfl
  | some b => exact runIdentRow_quiet _ s

theorem execDecode_quiet (p : List Byte) (s : State) : execDecode p (quiet s) = quietResult (execDecode p s) :=
  ite_quietResult (ite_quietResult rfl (decodeCore_quiet (loadPayload p s))) rfl

/-! ## The receiver rows and POLL -/

theorem acceptFrame_quiet (p : List Byte) (s : State) : acceptFrame p (quiet s) = quietResult (acceptFrame p s) := by
  have hcall : (quiet s).call = s.call := rfl
  unfold acceptFrame
  rw [hcall]
  cases s.call with
  | none => rfl
  | receive => rfl
  | request => exact decodeCore_quiet (loadPayload p (closeCall s))

theorem integrityCheck_quiet (s : State) : integrityCheck (quiet s) = quietResult (integrityCheck s) :=
  ite_quietResult (acceptFrame_quiet _ (emit _ s)) (next_quiet (failCall_quiet _ (emit _ s)))

theorem keepOrOverflow_quiet (s : State) : keepOrOverflow (quiet s) = quiet (keepOrOverflow s) :=
  ite_quiet (failCall_quiet _ (emit _ s)) rfl

theorem appendRow_quiet (r : RxRow) (b : Byte) (s : State) :
    rxRow r (quiet s) (withRoom (quiet s) (.next (keepOrOverflow (rxAppend b (quiet s))))) =
      quietResult (rxRow r s (withRoom s (.next (keepOrOverflow (rxAppend b s))))) :=
  rxRow_quiet r (withRoom_quiet (next_quiet (keepOrOverflow_quiet (rxAppend b s))))

theorem runRxRow_quiet (r : RxRow) (s : State) : runRxRow r (quiet s) = quietResult (runRxRow r s) := by
  cases r with
  | startShort => exact rxRow_quiet _ rfl
  | startLong => exact rxRow_quiet _ (next_quiet (failCall_quiet _ (emit _ s)))
  | startOther b => exact rxRow_quiet _ (next_quiet (emit_quiet _ s))
  | length b => exact rxRow_quiet _ rfl
  | data b => exact appendRow_quiet _ b s
  | terminator => exact rxRow_quiet _ (withRoom_quiet (integrityCheck_quiet (rxAppend Config.terminator s)))
  | notTerminator b => exact appendRow_quiet _ b s

theorem takeByte_quiet (b : Byte) (rest : List Byte) (s : State) :
    takeByte b rest (quiet s) = quietResult (takeByte b rest s) := by
  have hcontext : rxContext (quiet s) = rxContext s := rfl
  unfold takeByte
  rw [hcontext]
  cases rxContext s with
  | none => rfl
  | some c => exact runRxRow_quiet _ (setFifo rest s)

theorem execPoll_quiet (time : Nat) (s : State) : execPoll time (quiet s) = quietResult (execPoll time s) := by
  have hfifo : (quiet s).rx_fifo = s.rx_fifo := rfl
  unfold execPoll
  rw [hfifo]
  refine ite_quietResult rfl (ite_quietResult (next_quiet (failCall_quiet _ s)) ?_)
  cases s.rx_fifo with
  | nil => rfl
  | cons b rest => exact takeByte_quiet b rest s

/-! ## Every instruction -/

theorem execConfigure_quiet (timeout : Nat) (ident : Byte) (crcInit : Word16) (reqSentinel : Byte) (optable : OpTable)
    (s : State) : execConfigure timeout ident crcInit reqSentinel optable (quiet s) =
      quietResult (execConfigure timeout ident crcInit reqSentinel optable s) :=
  next_quiet (ite_quiet rfl rfl)

theorem execReadField_quiet (record : Record) (slot : Slot) (s : State) :
    execReadField record slot (quiet s) = quietResult (execReadField record slot s) := by
  have hslot : readSlot (quiet s) slot = readSlot s slot := rfl
  unfold execReadField
  rw [hslot]
  refine hostOp_quiet (ite_quiet ?_ rfl)
  cases readSlot s slot <;> rfl

/-- Every instruction but BIND_DIAG does on the quiet state what it does on the state. -/
theorem exec_quiet (hi : i ≠ .bindDiag) (s : State) : exec i (quiet s) = quietResult (exec i s) := by
  cases i with
  | configure timeout ident crcInit reqSentinel optable => exact execConfigure_quiet ..
  | bindTransport => exact hostOp_quiet (ite_quiet rfl rfl)
  | bindDiag => exact absurd rfl hi
  | crcClear => exact hostOp_quiet rfl
  | crcFeed b => exact hostOp_quiet rfl
  | crcRead => exact hostOp_quiet rfl
  | crcCompute bytes => exact hostOp_quiet rfl
  | txSend p => exact hostOp_quiet (ite_quiet rfl (ite_quiet rfl rfl))
  | rxReceive => exact hostOp_quiet (ite_quiet rfl rfl)
  | decode p => exact execDecode_quiet p s
  | encRequest op => exact hostOp_quiet rfl
  | encFields op vs => exact hostOp_quiet (ite_quiet (ite_quiet rfl rfl) rfl)
  | request op => exact hostOp_quiet (ite_quiet rfl rfl)
  | readField record slot => exact execReadField_quiet record slot s
  | poll time => exact execPoll_quiet time s
  | arrive b => rfl
  | startShort => exact runRxRow_quiet .startShort s
  | startLong => exact runRxRow_quiet .startLong s
  | startOther b => exact runRxRow_quiet (.startOther b) s
  | length b => exact runRxRow_quiet (.length b) s
  | data b => exact runRxRow_quiet (.data b) s
  | terminator => exact runRxRow_quiet .terminator s
  | notTerminator b => exact runRxRow_quiet (.notTerminator b) s
  | identOk => exact execIdentOk_quiet s
  | identMismatch b => exact execIdentMismatch_quiet b s
  | opRequestTelemetry => exact execOpRequestTelemetry_quiet s
  | opArm op => exact execOpArm_quiet op s
  | opUnknown op => exact execOpUnknown_quiet op s

/-! ## Steps and runs -/

theorem step_past {l : HostLine} {rest : List HostLine} (h : s.inputs = l :: rest) (ht : l.now < s.now) :
    step s = .next (refuse { s with inputs := rest }) := by
  simp [step, pending, h, ht]

theorem step_rejected {l : HostLine} {rest : List HostLine} {r : Reject} (h : s.inputs = l :: rest) (ht : s.now ≤ l.now)
    (hd : decodeLine l = .error r) : step s = .next (refuse (lineTaken l rest s)) := by
  simp [step, pending, h, Nat.not_lt.mpr ht, hd]

/-- A step on the quiet state does what it does on the state, unless the line it takes is BIND_DIAG. -/
theorem step_quiet (h : ∀ l ∈ s.inputs, l.name ≠ .bindDiag) : step (quiet s) = quietResult (step s) := by
  rcases step_cases s with ⟨hi, e⟩ | ⟨l, rest, hi, ht, e⟩ | ⟨l, rest, r, hi, ht, hd, e⟩ |
    ⟨l, rest, i, hi, ht, hd, e⟩ <;> rw [e]
  · exact step_idle (s := quiet s) hi
  · exact step_past (s := quiet s) hi ht
  · exact step_rejected (s := quiet s) hi ht hd
  · have hname : i ≠ .bindDiag := by
      rintro rfl
      exact h l (hi ▸ List.mem_cons_self) (mnemonic_of_decodeLine hd).symm
    exact (step_run (s := quiet s) hi ht hd).trans (exec_quiet hname (lineTaken l rest s))

/-- No instruction writes `inputs`. -/
theorem ExecEffect.inputs (h : ExecEffect s i t) : t.inputs = s.inputs := by
  cases h with
  | decode p t _ _ ht => rw [ht.frame]; rfl
  | timedOut => rw [failCall_frame]
  | byteTaken time b rest t _ _ _ ht => rw [ht.frame]; rfl
  | receiverRow r t ht => rw [(runRxRow_next_effect ht).frame]
  | decodeRow i t _ ht => rw [ht.frame]
  | _ => rfl

/-- A step adds no line. -/
theorem step_inputs_subset (h : step s = .next t) : t.inputs ⊆ s.inputs := by
  rcases step_cases s with ⟨-, e⟩ | ⟨l, rest, hi, -, e⟩ | ⟨l, rest, r, hi, -, -, e⟩ | ⟨l, rest, i, hi, -, -, e⟩
  · obtain rfl := Host.Outcome.next.inj (e.symm.trans h)
    exact List.Subset.refl _
  · obtain rfl := Host.Outcome.next.inj (e.symm.trans h)
    exact hi ▸ List.subset_cons_self l rest
  · obtain rfl := Host.Outcome.next.inj (e.symm.trans h)
    exact hi ▸ List.subset_cons_self l rest
  · have hrest : t.inputs = rest := (exec_effect (e.symm.trans h)).inputs
    rw [hrest, hi]
    exact List.subset_cons_self l rest

theorem core_run_succ_of_next (k : Nat) (h : step s = .next t) : core.run (k + 1) s = core.run k t := by
  have hstep : core.step s = .next t := h
  simp only [Host.Core.run, hstep]

theorem core_run_succ_of_fault (k : Nat) {f : Fault} (h : step s = .fault f) : core.run (k + 1) s = .fault f := by
  have hstep : core.step s = .fault f := h
  simp only [Host.Core.run, hstep]

theorem core_run_succ_of_refused (k : Nat) {r : Refusal} (h : step s = .refused r) : core.run (k + 1) s = .refused r := by
  have hstep : core.step s = .refused r := h
  simp only [Host.Core.run, hstep]

/-- A run without BIND_DIAG on the quiet state does what it does on the state. -/
theorem core_run_quiet (k : Nat) (h : ∀ l ∈ s.inputs, l.name ≠ .bindDiag) :
    core.run k (quiet s) = quietResult (core.run k s) := by
  induction k generalizing s with
  | zero => rfl
  | succ k ih =>
    have hstep := step_quiet h
    cases hs : step s with
    | next t =>
      rw [hs] at hstep
      rw [core_run_succ_of_next k hs, core_run_succ_of_next k hstep]
      exact ih fun l hl => h l (step_inputs_subset hs hl)
    | fault f =>
      rw [hs] at hstep
      rw [core_run_succ_of_fault k hs, core_run_succ_of_fault k hstep]
      rfl
    | refused r =>
      rw [hs] at hstep
      rw [core_run_succ_of_refused k hs, core_run_succ_of_refused k hstep]
      rfl

/-- Settles O46: both runs, once quiet, are the run of the one quiet state. -/
theorem diagnosticsChangeNothingElse : Obligations.DiagnosticsChangeNothingElse := by
  intro k s t hs hst
  have hquiet : quiet s = quiet t := sameButDiagnostics_iff_quiet.mp hst
  have hinputs : s.inputs = t.inputs := congrArg State.inputs (a₁ := quiet s) (a₂ := quiet t) hquiet
  have ht : ∀ l ∈ t.inputs, l.name ≠ .bindDiag := hinputs ▸ hs
  refine sameOutcome_of_quietResult_eq ?_
  rw [← core_run_quiet k hs, ← core_run_quiet k ht, hquiet]

end Sys2Proof.Machine
end

section
/-!
The proofs of O2, O41, O42 and O43, about the session-facing operations: CONFIGURE, the bindings, REQUEST and READ_FIELD.
-/

namespace Sys2Proof.Machine

open Sys2Proof.Claims

variable {s : State}

/-! ## CONFIGURE -/

theorem exec_configure_admitted {crcInit : Word16} {optable : OpTable} (timeout : Nat) (ident reqSentinel : Byte)
    (hu : s.configured = false) (hc : s.call = .none) (h : configurable crcInit optable = true) :
    exec (.configure timeout ident crcInit reqSentinel optable) s =
      .next (respond .done (configuredState timeout ident crcInit reqSentinel optable s)) :=
  congrArg _ (if_pos ⟨hu, hc, h⟩)

theorem exec_configure_refused {crcInit : Word16} {optable : OpTable} (timeout : Nat) (ident reqSentinel : Byte)
    (h : s.configured = true ∨ configurable crcInit optable = false) :
    exec (.configure timeout ident crcInit reqSentinel optable) s = .next (refuse s) := by
  refine congrArg _ (if_neg ?_)
  rintro ⟨hu, -, hc⟩
  rcases h with h | h
  · simp [hu] at h
  · simp [hc] at h

/-- An initial value that is not admitted, or an ill-formed table, is no operand of CONFIGURE (60_exceptions.md R300). -/
theorem configurable_eq_false {crcInit : Word16} {optable : OpTable}
    (h : (crcInit ≠ 0xFFFF ∧ crcInit ≠ 0x0000) ∨ optable.wellFormed = false) : configurable crcInit optable = false := by
  refine Bool.eq_false_iff.mpr fun hc => ?_
  obtain ⟨hcrc, -, htable⟩ := (configurable_iff crcInit optable).mp hc
  rcases h with ⟨hF, h0⟩ | h
  · exact hcrc.elim hF h0
  · simp [htable] at h

/-- Settles O2: CONFIGURE takes admitted operands on an unconfigured block, and is refused otherwise. -/
theorem configureSetsEveryRegister : Obligations.ConfigureSetsEveryRegister := by
  intro timeout ident crcInit sentinel table s
  refine ⟨fun hu hc hcrc hmap hwf => ?admitted, fun h => ?refused⟩
  case admitted =>
    exact exec_configure_admitted timeout ident sentinel hu hc ((configurable_iff crcInit table).mpr ⟨hcrc, hmap, hwf⟩)
  case refused => exact exec_configure_refused timeout ident sentinel (h.imp_right configurable_eq_false)

/-! ## The bindings -/

theorem hostOp_refuse (s : State) : hostOp s (refuse s) = refuse s := ite_self _

/-- An operation that may run once: it runs on a ready block whose flag is clear, and is refused while a call is open or the flag is
set. -/
theorem hostOp_once (flag : Bool) (s run : State) :
    (Ready s → flag = false →
      Host.Outcome.next (hostOp s (if flag = true then refuse s else run)) = (.next run : Result)) ∧
    (s.call ≠ .none ∨ flag = true →
      Host.Outcome.next (hostOp s (if flag = true then refuse s else run)) = (.next (refuse s) : Result)) := by
  cases flag with
  | false =>
    obtain ⟨hrun, hrefused⟩ := hostOp_runs_or_refused s run
    exact ⟨fun h _ => hrun h, fun h => hrefused (h.resolve_right nofun)⟩
  | true => exact ⟨nofun, fun _ => congrArg _ (hostOp_refuse s)⟩

/-- Settles O41: each binding is an operation that may run once. -/
theorem bindOperationsOnceEach : Obligations.BindOperationsOnceEach := by
  intro s
  obtain ⟨htransport, htransportAgain⟩ :=
    hostOp_once s.transport_bound s (respond .done { s with transport_bound := true })
  obtain ⟨hdiag, hdiagAgain⟩ := hostOp_once s.diag_bound s (respond .done { s with diag_bound := true })
  exact ⟨htransport, htransportAgain, hdiag, hdiagAgain⟩

/-! ## REQUEST -/

/-- Settles O42: REQUEST is a host operation whose run is one of two by the transport's binding; its frame has 8 bytes, of which the
transport takes k. -/
theorem requestSendsFrameAndOpensCall : Obligations.RequestSendsFrameAndOpensCall := by
  intro op s
  obtain ⟨hrun, hrefused⟩ := hostOp_runs_or_refused s
    (if s.transport_bound = false then respond (.decoded .noTransport none) s
      else openCall .request (transmit (pack s.cfg_crc_init (requestPayload s op)) s))
  refine ⟨fun h hb => ?unbound, fun h hb => ?sent, hrefused⟩
  case unbound => exact (hrun h).trans (by rw [if_pos hb]; rfl)
  case sent =>
    have hlen : (frameBytes (requestPayload s op) (checksum s.cfg_crc_init (requestPayload s op))).length = 8 :=
      frameBytes_length ..
    refine ⟨drawTxAccept 8 s, drawTxAccept_le 8 s, fun _ _ ha => drawTxAccept_cons 8 ha, (hrun h).trans ?_⟩
    rw [if_neg (by simp [hb]), transmit, pack_eq_frameBytes, hlen]
    rfl

/-! ## READ_FIELD -/

/-- A slot paired with its own record is in READ_FIELD's domain (44_session_ops.md R258); a written one is answered. -/
theorem exec_readField_written {sl : Slot} {v : SlotVal} (h : readSlot s sl = some v) :
    exec (.readField sl.record sl) s =
      .next (hostOp s (respond (.field v.kind v.raw (fieldValue v.kind v.raw)) s)) := by
  rw [exec, execReadField, if_pos rfl, h]

theorem exec_readField_unwritten {sl : Slot} (h : readSlot s sl = none) :
    exec (.readField sl.record sl) s = .next (hostOp s (markFault s)) := by
  rw [exec, execReadField, if_pos rfl, h]

/-- Settles O43: READ_FIELD is a host operation whose run answers the slot or sets the mark. -/
theorem readFieldAnswersOrMarksFault : Obligations.ReadFieldAnswersOrMarksFault := by
  intro sl s
  refine ⟨fun k r h hs => ?written, fun h hs => ?unwritten, (hostOp_runs_or_refused s _).2⟩
  case written => exact (exec_readField_written hs).trans ((hostOp_runs_or_refused s _).1 h)
  case unwritten => exact (exec_readField_unwritten hs).trans ((hostOp_runs_or_refused s _).1 h)

end Sys2Proof.Machine
end

section
/-!
The proof of O22: an accepted frame of a Request call is decoded as DECODE decodes its payload.
-/

namespace Sys2Proof.Machine

open Sys2Proof.Claims

variable {p : List Byte} {s t : State}

/-- Where the terminator completes the frame, the row appends it and runs the integrity check (41_frame_receiver.md R158, R162). -/
theorem exec_terminator_last (hc : s.call ≠ .none) (hs : s.rx_state = .accumulating) (hl : s.rx_count + 1 = s.rx_expected)
    (hr : s.rx_count < 260) : exec .terminator s = integrityCheck (byteAppended 0x03 s) :=
  (rxRow_selected (rxContext_last_iff.mpr ⟨hc, hs, hl⟩) .terminator rfl _).trans (withRoom_room hr)

theorem framePayload_fits (s : State) : (framePayload s).length ≤ 255 := by
  have hlen : s.rx_len.toNat < 256 := s.rx_len.isLt
  rw [framePayload_length]
  omega

/-- A Request call ends with the decode of the accepted payload (44_session_ops.md R257). -/
theorem acceptFrame_request (hc : s.call = .request) :
    acceptFrame (framePayload s) (emit (.frameAccepted s.rx_len) s) =
      decodeCore { frameAccepted s with payload := framePayload s } := by
  simp only [acceptFrame, emit_call, hc, loadPayload_of_fits (framePayload_fits s)]
  rfl

/-- DECODE answers with its outcome and opcode, in the order of 60_exceptions.md R293. -/
theorem DecodeRun.responses (h : DecodeRun p s t) :
    t.responses = s.responses ++ [.decoded (decodeOutcome s p).1 (decodeOutcome s p).2] := by
  cases h with
  | rejected o detail op _ ho => rw [ho]; rfl
  | committed op rest a _ _ ho => rw [ho]; rfl

/-- Settles O22: the integrity check accepts, and what follows is DECODE in the state the accepted frame leaves. -/
theorem acceptedFrameInRequestIsDecoded : Obligations.AcceptedFrameInRequestIsDecoded := by
  rintro s a hconf hcall hs hl hr rfl hsum
  have hready : Ready (frameAccepted (byteAppended 0x03 s)) := ⟨hconf, rfl⟩
  have hfits := framePayload_fits (byteAppended 0x03 s)
  have hexec : exec .terminator s =
      exec (.decode (framePayload (byteAppended 0x03 s))) (frameAccepted (byteAppended 0x03 s)) := by
    rw [exec_terminator_last (by simp [hcall]) hs hl hr, integrityCheck_frame, exec_decode_eq_decodeCore hready hfits]
    exact (if_pos hsum).trans (acceptFrame_request hcall)
  obtain ⟨t, ht, hrun⟩ := exec_decode_decodeRun hready hfits
  refine ⟨⟨t, hexec.trans ht, ?call, ?rxState, hrun.responses⟩, hexec⟩
  case call => rw [hrun.frame]; rfl
  case rxState => rw [hrun.frame]; rfl

end Sys2Proof.Machine
end

section
/-!
The proofs of O32 and O60, about the outcomes of 60_exceptions.md: the order of a decode's tests, and the numbers of the codes.
-/

namespace Sys2Proof.Machine

open Sys2Proof.Claims

/-- Settles O32: every way DECODE can end appends the response R293's order of tests gives. -/
theorem decodeTestsInOrder : Obligations.DecodeTestsInOrder := by
  intro p s h hp
  obtain ⟨t, ht, hrun⟩ := exec_decode_decodeRun h hp
  exact ⟨t, ht, hrun.responses⟩

/-- Settles O60: each number is the one its constructor is given (60_exceptions.md R281, R295). -/
theorem outcomeAndDiagnosticNumbers : Obligations.OutcomeAndDiagnosticNumbers := by
  refine ⟨?outcomes, fun b x y o => ?events⟩
  case outcomes => rfl
  case events => rfl

end Sys2Proof.Machine
end

section
/-!
The proof of O4: every host operation is guarded. CONFIGURE's guard fails while a call is open; the guard of every other operation
fails then and before CONFIGURE.
-/

namespace Sys2Proof.Machine

variable {i : Instr} {s : State}

/-- CONFIGURE's guard asks that no call is open, whatever its operands are (log 26). -/
theorem exec_configure_inCall (timeout : Nat) (ident : Byte) (crcInit : Word16) (reqSentinel : Byte) (optable : OpTable)
    (h : s.call ≠ .none) : exec (.configure timeout ident crcInit reqSentinel optable) s = .next (refuse s) :=
  congrArg _ (if_neg fun ⟨_, hn, _⟩ => h hn)

/-- DECODE has the guard of `hostOp`, written out (43_command_codec.md R220). -/
theorem exec_decode_refused (p : List Byte) (h : s.configured = false ∨ s.call ≠ .none) :
    exec (.decode p) s = .next (refuse s) :=
  if_neg fun ⟨hc, hn⟩ => h.elim (by simp [hc]) fun hcall => hcall hn

/-- Every host operation but CONFIGURE runs after CONFIGURE and between calls only (60_exceptions.md R291, R300). -/
theorem exec_hostOp_refused (hf : i.mnemonic.format = .hostOp) (hi : i.mnemonic ≠ .configure)
    (h : s.configured = false ∨ s.call ≠ .none) : exec i s = .next (refuse s) := by
  cases i with
  | configure => exact absurd rfl hi
  | decode p => exact exec_decode_refused p h
  | bindTransport | bindDiag | crcClear | crcFeed | crcRead | crcCompute | txSend | rxReceive | encRequest | encFields
  | request | readField => exact congrArg Host.Outcome.next (hostOp_refused h)
  | _ => cases hf

/-- Settles O4: with a call open both guards refuse; before CONFIGURE the guard of the other operations does. -/
theorem hostOperationOutOfTurnIsRefused : Obligations.HostOperationOutOfTurnIsRefused := by
  intro i s hf h
  by_cases hi : i.mnemonic = .configure
  · have hcall : s.call ≠ .none := h.resolve_right fun ⟨_, hne⟩ => hne hi
    cases i with
    | configure timeout ident crcInit reqSentinel optable => exact exec_configure_inCall _ _ _ _ _ hcall
    | _ => cases hi
  · exact exec_hostOp_refused hf hi (h.symm.imp_left And.left)

end Sys2Proof.Machine
end

section
/-!
The proofs of O1 and O53, about where a run starts and what one step of it does.
-/

namespace Sys2Proof.Machine

/-- The initial value and the table of the state before CONFIGURE (log 2) are operands CONFIGURE admits. -/
theorem configurable_resetOperands : configurable Config.crcInitDefault defaultTable = true := by decide +kernel

/-- Settles O1: but for `configured`, the reset state is the one CONFIGURE leaves for its operands, and nothing is bound in it. -/
theorem resetStateSatisfiesInvariant : Obligations.ResetStateSatisfiesInvariant :=
  { inv_configuredState 0 Config.identDefault 0 State.reset configurable_resetOperands with
    boundConfigured := nofun
    diagConfigured := nofun }

/-- Settles O53: the four cases of a step, by its oldest line. -/
theorem stepRunsDecodedLine : Obligations.StepRunsDecodedLine := by
  refine fun s => ⟨step_idle, fun l rest hl => ⟨fun i ht hd => ?runs, fun r ht hd => ?rejected, fun ht => ?past⟩⟩
  case runs => exact step_run hl ht hd
  case rejected => exact step_rejected hl ht hd
  case past => exact step_past hl ht

end Sys2Proof.Machine
end

section
/-!
The proof of O54: the decoder reads back the line the encoder writes, operand form by operand form (30_encoding.md, opening).
-/

namespace Sys2Proof

/-! ## The operand lists the encoder writes -/

theorem oneByte_toNat (b : Byte) (f : Byte → Instr) : oneByte [.num b.toNat] f = .ok (f b) :=
  withByte_toNat b fun b => .ok (f b)

theorem decodeConfigure_operands (timeout : Nat) (ident : Byte) (crcInit : Word16) (sentinel : Byte) {t : OpTable}
    (h : t.isMap = true) :
    decodeConfigure [.num timeout, .num ident.toNat, .num crcInit.toNat, .num sentinel.toNat, .table t] =
      .ok (.configure timeout ident crcInit sentinel t) := by
  simp only [decodeConfigure, withByte_toNat, withWord16_toNat, withTable_of_isMap h]

theorem decodeEncFields_operands {op : Byte} {vs : List (Kind × FieldIn)} (h : (Instr.encFields op vs).wellFormed = true) :
    decodeEncFields [.num op.toNat, .values vs] = .ok (.encFields op vs) := by
  rw [decodeEncFields, withByte_toNat, checked_of_wellFormed h]

/-! ## The line of an operation -/

/-- The line of a well-formed operation is read back as the operation. -/
theorem decodeLine_of_encodeLine {now : Nat} {i : Instr} {l : HostLine} (hw : i.wellFormed = true)
    (h : encodeLine now i = some l) : decodeLine l = .ok i := by
  cases i with
  | configure timeout ident crcInit sentinel t => cases h; exact decodeConfigure_operands timeout ident crcInit sentinel hw
  | encFields op vs => cases h; exact decodeEncFields_operands hw
  | readField r s => cases h; exact checked_of_wellFormed hw
  | crcFeed b | encRequest b | request b | arrive b => cases h; exact oneByte_toNat b _
  | bindTransport | bindDiag | crcClear | crcRead | crcCompute | txSend | rxReceive | decode | poll => cases h; rfl
  | _ => cases h

/-- Only the rows of the wire have no line. -/
theorem exists_encodeLine (now : Nat) {i : Instr} (hf : i.mnemonic.format ≠ .wireByte) : ∃ l, encodeLine now i = some l := by
  cases i with
  | startShort | startLong | startOther | length | data | terminator | notTerminator | identOk | identMismatch
  | opRequestTelemetry | opArm | opUnknown => exact absurd rfl hf
  | _ => exact ⟨_, rfl⟩

theorem encode_of_encodeLine {c : WireContext} {now : Nat} {i : Instr} {l : HostLine} (h : encodeLine now i = some l) :
    encode c now i = some (.line l) := by
  rw [encode, h]

/-- Settles O54: an operation has a line, `encode` gives that line in every context, and the decoder reads it back. -/
theorem lineDecodesToEncodedInstruction : Obligations.LineDecodesToEncodedInstruction := by
  intro c now i hw hf
  obtain ⟨l, hl⟩ := exists_encodeLine now hf
  exact ⟨l, encode_of_encodeLine hl, decodeLine_of_encodeLine hw hl⟩

end Sys2Proof
end
